-- ==== Sys2Proof/Word.lean ====
section
/-! DEFINITION. The word types of XMG (spec/00_scope.md R7, R9; spec/20_memory.md R50). Every value is unsigned (R9),
and `+` on `Word` is addition modulo 2^64 (R10). -/

namespace Sys2Proof

/-- A PRNG state word, a draw, or a value on the 64-bit host data path (R7 WORD, R8 BUS_WIDTH). -/
abbrev Word := BitVec 64

/-- One byte of the seed, or of the window seen as bytes (R56, R120). -/
abbrev Byte := BitVec 8

/-- One matrix entry, 0..15 (R7 NIB, R24). -/
abbrev Nibble := BitVec 4

/-- A byte offset in the 4096-byte host register window (R50). -/
abbrev Offset := BitVec 12

end Sys2Proof
end

