-- ==== Sys2Proof/Syntax.lean ====
section
/-! DEFINITION. The six commands of XMG (spec/30_encoding.md R83; spec/opcode_table.json), one constructor a row. -/

namespace Sys2Proof

/-- A command. `len` is the operand LEN, the host-declared seed length in bytes, as the integer R82 makes of it. -/
inductive Instr where
  | nop                        -- NOP, R200
  | loadSeed (len : Nat)       -- LOAD_SEED, R123
  | step                       -- STEP, R103
  | genSeeded (len : Nat)      -- GEN_SEEDED, R146
  | genContinue                -- GEN_CONTINUE, R147
  | abort                      -- ABORT, R201
deriving DecidableEq, Repr

end Sys2Proof
end

