-- ==== Sys2Proof/WellFormed.lean ====
section
/-! DEFINITION. Which commands a command word can carry: LEN is a 16-bit field (spec/30_encoding.md R81, R82). -/

namespace Sys2Proof

/-- The integer fits the field LEN (R81, R82). -/
def lenFits (len : Nat) : Bool := decide (len < 2 ^ 16)

/-- The command is one that a command word can carry. -/
def Instr.wf : Instr → Bool
  | .nop => true
  | .loadSeed len => lenFits len
  | .step => true
  | .genSeeded len => lenFits len
  | .genContinue => true
  | .abort => true

end Sys2Proof
end

