-- ==== Sys2Proof/Decode.lean ====
section
/-! DEFINITION. The command word, its decoder and its encoder (spec/30_encoding.md R80 to R86). Every command is one
64-bit word delivered by a host write to CMD: there is no fetch, and no other length (R80). -/

namespace Sys2Proof

/-! ### The fields of the command word (R81) -/

/-- R81 OPCODE, bits [3:0]. -/
def opcodeField (w : Word) : BitVec 4 := w.extractLsb' 0 4

/-- R81 RSV0, bits [7:4]. -/
def rsv0Field (w : Word) : BitVec 4 := w.extractLsb' 4 4

/-- R81 LEN, bits [23:8]. -/
def lenField (w : Word) : BitVec 16 := w.extractLsb' 8 16

/-- R81 RSV1, bits [63:24]. -/
def rsv1Field (w : Word) : BitVec 40 := w.extractLsb' 24 40

/-! ### Decoding (R84) -/

/-- Why a word is no command: the three reasons of R86. -/
inductive Bad where
  | reservedBits      -- a bit of RSV0 or RSV1 is set
  | lengthNotZero     -- LEN is not 0 under NOP, STEP, GEN_CONTINUE or ABORT
  | reservedOpcode    -- OPCODE is 0x5..0xE
deriving DecidableEq, Repr

/-- What R84 makes of a word: a command, or BAD for a named reason. -/
inductive Decoded where
  | command (i : Instr)
  | bad (why : Bad)
deriving DecidableEq, Repr

/-- A command without an operand: its LEN must be 0 (R81, R84). -/
def noOperand (len : BitVec 16) (i : Instr) : Decoded :=
  if len = 0 then .command i else .bad .lengthNotZero

/-- R84: `Decode`, total on every 64-bit word. -/
def decode (w : Word) : Decoded :=
  if rsv0Field w ≠ 0 ∨ rsv1Field w ≠ 0 then .bad .reservedBits
  else
    match opcodeField w with
    | 0x0#4 => noOperand (lenField w) .nop
    | 0x1#4 => .command (.loadSeed (lenField w).toNat)
    | 0x2#4 => noOperand (lenField w) .step
    | 0x3#4 => .command (.genSeeded (lenField w).toNat)
    | 0x4#4 => noOperand (lenField w) .genContinue
    | 0xF#4 => noOperand (lenField w) .abort
    | _ => .bad .reservedOpcode

/-- The command in a word whose bits are `w`, numbered from 0 at the least significant, the bits from `nbits` on being 0.
A command word has 64 bits (R80), so a longer one is none. -/
def decodeTableWord (nbits w : Nat) : Option Instr :=
  if nbits ≤ 64 then
    match decode (BitVec.ofNat 64 (w % 2 ^ nbits)) with
    | .command i => some i
    | .bad _ => none
  else none

/-! ### Encoding (R81, R83) -/

/-- The word `RSV1 | LEN | RSV0 | OPCODE` with both reserved fields 0: LEN at bit 8, OPCODE at bit 0 (R81). -/
def commandWord (op : BitVec 4) (len : BitVec 16) : Word := (len.setWidth 64 <<< 8) ||| op.setWidth 64

/-- R83: the OPCODE of each command. -/
def Instr.opcode : Instr → BitVec 4
  | .nop => 0x0
  | .loadSeed _ => 0x1
  | .step => 0x2
  | .genSeeded _ => 0x3
  | .genContinue => 0x4
  | .abort => 0xF

/-- R82: the LEN field of each command. A length that does not fit is cut to 16 bits, which is the fault R125 warns
hosts of; `Instr.wf` rules it out. -/
def Instr.lenBits : Instr → BitVec 16
  | .nop => 0
  | .loadSeed len => BitVec.ofNat 16 len
  | .step => 0
  | .genSeeded len => BitVec.ofNat 16 len
  | .genContinue => 0
  | .abort => 0

/-- The command word of a command (R81, R83). -/
def encode (i : Instr) : Word := commandWord i.opcode i.lenBits

/-! ### The table of match and mask (R83) -/

/-- One row of R83's second table. -/
structure OpcodeRow where
  mnemonic : String
  fixed : Word
  mask : Word
deriving DecidableEq, Repr

/-- R83: the six rows. -/
def opcodeTable : List OpcodeRow :=
  [ ⟨"NOP", 0x0000000000000000, 0xFFFFFFFFFFFFFFFF⟩,
    ⟨"LOAD_SEED", 0x0000000000000001, 0xFFFFFFFFFF0000FF⟩,
    ⟨"STEP", 0x0000000000000002, 0xFFFFFFFFFFFFFFFF⟩,
    ⟨"GEN_SEEDED", 0x0000000000000003, 0xFFFFFFFFFF0000FF⟩,
    ⟨"GEN_CONTINUE", 0x0000000000000004, 0xFFFFFFFFFFFFFFFF⟩,
    ⟨"ABORT", 0x000000000000000F, 0xFFFFFFFFFFFFFFFF⟩ ]

/-- The word matches the row. -/
def OpcodeRow.hits (r : OpcodeRow) (w : Word) : Bool := (w &&& r.mask) == r.fixed

/-- R83: the mnemonic of each command. -/
def Instr.mnemonic : Instr → String
  | .nop => "NOP"
  | .loadSeed _ => "LOAD_SEED"
  | .step => "STEP"
  | .genSeeded _ => "GEN_SEEDED"
  | .genContinue => "GEN_CONTINUE"
  | .abort => "ABORT"

end Sys2Proof
end

