-- ==== Sys2Proof/Config.lean ====
section
/-! DEFINITION. The parameters of XMG (spec/00_scope.md R7, R8). The source fixes those of R7; R8 fixes the others but for
BASE, which is open and stands here without a value, and RankFn, which is open as a function and is carried as plain data
in State (notes/assumptions/3.md). -/

namespace Sys2Proof.Config

/-- R7 SEED_BYTES: the only seed length the loader accepts (R122). -/
abbrev seedBytes : Nat := 32

/-- R7 ROT_A: the output rotation of xoshiro256++ (R101). -/
abbrev rotA : Nat := 23

/-- R7 SHIFT_T: the shift of `t` (R101). -/
abbrev shiftT : Nat := 17

/-- R7 ROT_B: the rotation of `s3` (R101). -/
abbrev rotB : Nat := 45

/-- R7 N: the dimension of the matrix. -/
abbrev dim : Nat := 64

/-- R7 FULL_RANK: the accept criterion of CHECK (R181). -/
abbrev fullRank : Nat := 64

/-- R7 DRAWS_PER_ATTEMPT: 64 rows of 4 blocks. -/
abbrev drawsPerAttempt : Nat := 256

/-- R8 ATTEMPTS_BITS: ATTEMPTS stops at this value (R30). -/
abbrev attemptsMax : Nat := 2 ^ 32 - 1

/-- R8 BASE: the platform address of the window, open: no value is known of it and no rule reads it (R50). -/
opaque base : Nat

/-- The platform address of the byte at offset `off` of the window (R50). -/
def windowAddress (off : Offset) : Nat := base + off.toNat

end Sys2Proof.Config
end

