-- ==== Sys2Proof/Machine/State.lean ====
section
/-! DEFINITION. The state of XMG (spec/10_state.md R20 to R36), under the spec's own names, and beside it the parts of the
model that stand for what is around XMG: the host agent (R16), the order of steps (R62), what the host has seen (R87,
R220) and the rank checker behind the rank port (R180). -/

namespace Sys2Proof.Machine

/-- R33: the sequencer's phase. -/
inductive Phase where
  | idle
  | fill
  | check
deriving DecidableEq, Repr

/-- R223: the error codes, each under its name. The codes 6..15 are reserved and never produced. -/
inductive ErrCode where
  | none                 -- 0
  | invalidSeedLength    -- 1
  | notSeeded            -- 2
  | busy                 -- 3
  | badCommand           -- 4
  | aborted              -- 5
deriving DecidableEq, Repr

/-- R21: the source's PRNGState, the four words that every writer of S writes at once. -/
structure Prng where
  s0 : Word
  s1 : Word
  s2 : Word
  s3 : Word
deriving DecidableEq, Repr

/-- R24: a whole matrix, row by row, every entry with a value. -/
abbrev Mat64 := Vector (Vector Nibble 64) 64

/-- R24, R36: the matrix store. An entry holds no value until a FILL micro-step writes it. -/
abbrev MatrixStore := Vector (Vector (Option Nibble) 64) 64

/-- R180, R8: the rank checker's answers, as data: the matrices on which its answer is not (or is stated beside) the exact
rank, each with the 7-bit answer it gives. A matrix that is not listed is answered with its rank (R183). The set of
matrices is finite, so every RankFn is some table, and the empty table is the exact checker. -/
abbrev RankTable := List (Mat64 × BitVec 7)

/-- R16: the two agents that take steps. -/
inductive Agent where
  | host
  | engine
deriving DecidableEq, Repr

/-- R87: what the host can do to XMG. A read or write names its size, because a size other than 8 bytes is a bus error
(R54). -/
inductive HostOp where
  /-- `MemRead(off, size)` -/
  | read (off : Offset) (size : Nat)
  /-- `MemWrite(off, size, v)` -/
  | write (off : Offset) (size : Nat) (v : Word)
  /-- repeat `MemRead(off, 8)` until `(result & mask) = v` -/
  | poll (off : Offset) (mask v : Word)
  /-- assert the reset input (R250) -/
  | reset
deriving DecidableEq, Repr

/-- R220: the host-visible outcome of one access. -/
inductive Response where
  /-- a read that returned `v` -/
  | data (v : Word)
  /-- a write that the window accepted -/
  | done
  /-- the bus error response -/
  | busErr
deriving DecidableEq, Repr

/-- R237: the model faults. They are no error codes of the hardware. -/
inductive Fault where
  /-- Raised by the CHECK micro-step when the rank port answers a value outside 0..64 (R187). Safe: a stop. -/
  | rankProtocol
  /-- Raised by a rule that reads a state element that holds no value (R36): a draw without S, a CHECK with an unwritten
  entry, a host read whose guard passed without a value. No state that a run from reset reaches raises it. Safe: a stop. -/
  | unwrittenRead
deriving DecidableEq, Repr

/-- The reasons for which the model has no meaning. -/
inductive Refusal where
  /-- Raised by an arm of exec whose command has no meaning in the model. Every command has one, so nothing raises it.
  Safe: a stop. -/
  | notModelled (mnemonic : String)
deriving DecidableEq, Repr

/-- R20: the state of XMG, and after it the model's own fields. -/
structure State where
  /-- R21: the PRNG state registers; no value until a seed load. -/
  S : Option Prng
  /-- R22: the seed staging registers. -/
  SEED : Vector Word 4
  /-- R23: the last draw; no value until a draw. -/
  OUT : Option Word
  /-- R24: the matrix store. -/
  MAT : MatrixStore
  /-- R25 -/
  SEEDED : Bool
  /-- R26 -/
  OUT_VALID : Bool
  /-- R27 -/
  MATRIX_VALID : Bool
  /-- R28 -/
  ERR : ErrCode
  /-- R29 -/
  LAST_RANK : BitVec 7
  /-- R30 -/
  ATTEMPTS : BitVec 32
  /-- R33 -/
  PHASE : Phase
  /-- R33 -/
  ROW : Fin 64
  /-- R33 -/
  BLK : Fin 4
  /-- Model's own: what the host still has to do, in the order it issues it (R62, R87). -/
  host : List HostOp
  /-- Model's own: which agent takes each of the next steps (R62: the interleaving is free, so every list may stand
  here); when it is used up, `nextAgent` says whose step it is. -/
  turns : List Agent
  /-- Model's own: the outcomes of the host's accesses so far, the newest first (R87, R220). -/
  log : List Response
  /-- Model's own: the rank checker behind the rank port, a parameter that no step changes (R8, R35, R180). -/
  rankTable : RankTable
deriving DecidableEq, Repr

/-- R24, R36: the matrix store after reset: no entry holds a value. -/
def MatrixStore.unwritten : MatrixStore := Vector.replicate 64 (Vector.replicate 64 none)

/-- R251: XMG right after reset, with a host that has nothing to do, no step ordered, nothing seen, and the exact rank
checker (notes/assumptions/2.md, 3.md, 4.md). -/
def State.reset : State where
  S := none
  SEED := Vector.replicate 4 0
  OUT := none
  MAT := MatrixStore.unwritten
  SEEDED := false
  OUT_VALID := false
  MATRIX_VALID := false
  ERR := .none
  LAST_RANK := 0
  ATTEMPTS := 0
  PHASE := .idle
  ROW := 0
  BLK := 0
  host := []
  turns := []
  log := []
  rankTable := []

end Sys2Proof.Machine
end

