-- ==== Sys2Proof/Machine/Flags.lean ====
section
/-! DEFINITION. The status view (spec/10_state.md R28 to R32), the error codes (spec/60_exceptions.md R223) and the
saturating count (R30). -/

namespace Sys2Proof.Machine

/-- R223: the 4-bit code of each error. -/
def ErrCode.code : ErrCode → BitVec 4
  | .none => 0
  | .invalidSeedLength => 1
  | .notSeeded => 2
  | .busy => 3
  | .badCommand => 4
  | .aborted => 5

/-- R32: BUSY, derived from PHASE. -/
def State.busy (s : State) : Bool := !decide (s.PHASE = .idle)

/-- A field of STATUS, widened and put at its lowest bit. -/
def fieldAt {n : Nat} (v : BitVec n) (lo : Nat) : Word := v.setWidth 64 <<< lo

/-- R31: STATUS: LAST_RANK [22:16], ERR [11:8], MATRIX_VALID [3], OUT_VALID [2], SEEDED [1], BUSY [0]; all else 0. -/
def State.status (s : State) : Word :=
  fieldAt s.LAST_RANK 16 ||| fieldAt s.ERR.code 8 ||| fieldAt (BitVec.ofBool s.MATRIX_VALID) 3 |||
    fieldAt (BitVec.ofBool s.OUT_VALID) 2 ||| fieldAt (BitVec.ofBool s.SEEDED) 1 ||| fieldAt (BitVec.ofBool s.busy) 0

/-- R30: one more attempt, saturating at 0xFFFFFFFF. -/
def countAttempt (a : BitVec 32) : BitVec 32 := BitVec.ofNat 32 (min (a.toNat + 1) Config.attemptsMax)

end Sys2Proof.Machine
end

