-- ==== Sys2Proof/Machine/Prng.lean ====
section
/-! DEFINITION. The xoshiro256++ datapath (spec/40_prng_engine.md R100, R101) and the stream of draws it makes. -/

namespace Sys2Proof.Machine

/-- R100: left rotation by k, for 1 ≤ k ≤ 63. -/
def rotl64 (x : Word) (k : Nat) : Word := (x <<< k) ||| (x >>> (64 - k))

/-- R101: the output value, a function of the old words. -/
def Prng.out (p : Prng) : Word := rotl64 (p.s0 + p.s3) Config.rotA + p.s0

/-- R101: the next state. `s1'` reads the new `s2'` and `s0'` the new `s3'`. -/
def Prng.next (p : Prng) : Prng :=
  let t := p.s1 <<< Config.shiftT
  let a2 := p.s2 ^^^ p.s0
  let a3 := p.s3 ^^^ p.s1
  let n1 := p.s1 ^^^ a2
  let n0 := p.s0 ^^^ a3
  let n2 := a2 ^^^ t
  let n3 := rotl64 a3 Config.rotB
  ⟨n0, n1, n2, n3⟩

/-- R101: `Xoshiro(s0, s1, s2, s3) = (out, (n0, n1, n2, n3))`. -/
def xoshiro (p : Prng) : Word × Prng := (p.out, p.next)

/-- R144: the state after n draws. -/
def Prng.after (p : Prng) : Nat → Prng
  | 0 => p
  | n + 1 => (p.after n).next

/-- R144: draw number d, from 0, of the stream that starts at `p`. -/
def Prng.draw (p : Prng) (d : Nat) : Word := (p.after d).out

/-- S[w] (R21). -/
def Prng.word (p : Prng) : Fin 4 → Word
  | 0 => p.s0
  | 1 => p.s1
  | 2 => p.s2
  | 3 => p.s3

end Sys2Proof.Machine
end

