-- ==== Sys2Proof/Machine/Operands.lean ====
section
/-! DEFINITION. The data operands: the seed's bytes (spec/41_seed_loader.md R120, R121), the 16 nibbles of a draw and the
matrix store (spec/42_matrix_generator.md R140, R141; spec/20_memory.md R53). No operand but LEN stands in the command
word (R82). -/

namespace Sys2Proof.Machine

/-! ### Bytes (R56, R120) -/

/-- R56: byte t (0..7) of a 64-bit register: bits [8t+7 : 8t]. -/
def byteOf (v : Word) (t : Nat) : Byte := v.extractLsb' (8 * t) 8

/-- The byte as byte t (0..7) of a word that is 0 elsewhere (R56). -/
def byteAt (b : Byte) (t : Nat) : Word := b.setWidth 64 <<< (8 * t)

/-- R22, R120: byte k of the staged seed. -/
def seedByte (seed : Vector Word 4) (k : Fin 32) : Byte := byteOf (seed[k.val / 8]'(by omega)) (k.val % 8)

/-- R88, R120: word w of a seed given as 32 bytes: `{b[8w+7], …, b[8w]}`. -/
def packSeed (b : Vector Byte 32) (w : Fin 4) : Word :=
  byteAt b[8 * w.val] 0 ||| byteAt b[8 * w.val + 1] 1 ||| byteAt b[8 * w.val + 2] 2 ||| byteAt b[8 * w.val + 3] 3 |||
    byteAt b[8 * w.val + 4] 4 ||| byteAt b[8 * w.val + 5] 5 ||| byteAt b[8 * w.val + 6] 6 ||| byteAt b[8 * w.val + 7] 7

/-- R121: the state that a seed load makes of the staging registers. -/
def prngOfSeed (seed : Vector Word 4) : Prng := ⟨seed[0], seed[1], seed[2], seed[3]⟩

/-- R82, R125: the LEN that a host owes for a seed of n bytes. -/
def declaredLen (n : Nat) : Nat := min n 0xFFFF

/-! ### Nibbles and the matrix store -/

/-- R141: nibble k (0..15) of a draw, the most significant first: `(v >> (60 - 4k)) & 0xF`. -/
def nibble (v : Word) (k : Nat) : Nibble := (v >>> (60 - 4 * k)).setWidth 4

/-- R141: `Unpack(i, b, v)`: the draw's 16 nibbles become row i, columns 16b .. 16b+15. -/
def unpack (m : MatrixStore) (i : Fin 64) (b : Fin 4) (v : Word) : MatrixStore :=
  m.set i.val (Vector.ofFn fun j : Fin 64 =>
    if j.val / 16 = b.val then some (nibble v (j.val % 16)) else m[i.val][j.val])

/-- R53: the 16 entries that matrix word w shows, the lowest column first. -/
def blockEntries (m : MatrixStore) (w : Fin 256) : List (Option Nibble) :=
  List.ofFn fun k : Fin 16 => (m[w.val / 4]'(by omega))[16 * (w.val % 4) + k.val]'(by omega)

/-- Nibbles put side by side, the first in the highest place; nothing if one of them holds no value. -/
def joinNibbles (l : List (Option Nibble)) : Option Word :=
  l.foldl (fun acc e => acc.bind fun a => e.map fun x => (a <<< 4) ||| x.setWidth 64) (some 0)

/-- R53: `MATW[w]`; nothing if one of its entries holds no value (R36). -/
def matrixWord (m : MatrixStore) (w : Fin 256) : Option Word := joinNibbles (blockEntries m w)

/-- Every entry of the store holds a value. -/
def MatrixStore.full (m : MatrixStore) : Bool := m.all fun r => r.all Option.isSome

/-- R180, R182: the copy of the store that the rank port is sent; nothing if an entry holds no value (R36). -/
def snapshot (m : MatrixStore) : Option Mat64 :=
  if m.full then some (m.map fun r => r.map fun e => e.getD 0) else none

/-- R140, R141: the matrix that an attempt makes of the 256 draws of the stream that starts at `p`. -/
def attemptMatrix (p : Prng) : Mat64 :=
  Vector.ofFn fun i : Fin 64 => Vector.ofFn fun j : Fin 64 =>
    nibble (p.draw (4 * i.val + j.val / 16)) (j.val % 16)

end Sys2Proof.Machine
end

