-- ==== Sys2Proof/Machine/Ops.lean ====
section
/-! DEFINITION. The operations that commands and micro-steps share: the command error (spec/60_exceptions.md R224, in place
of the exception entry that XMG does not have, R228), the draw (spec/40_prng_engine.md R102), the seed load
(spec/41_seed_loader.md R121), the start of a generation (spec/42_matrix_generator.md R146, R147), its stop
(spec/44_control.md R201) and reset (spec/70_reset_and_hazards.md R251). -/

namespace Sys2Proof.Machine

/-- R225: write ERR. -/
def State.setErr (s : State) (e : ErrCode) : State := { s with ERR := e }

/-- R224: `fail(code)`: ERR takes the code, and nothing else changes. -/
def State.fail (s : State) (e : ErrCode) : State := s.setErr e

/-- R85, check 2: a data command runs only in PHASE = IDLE; otherwise it fails with BUSY. -/
def whenIdle (s : State) (k : Host.Outcome State Fault Refusal) : Host.Outcome State Fault Refusal :=
  if s.PHASE = .idle then k else .next (s.fail .busy)

/-- R122, check 3: a seed load of a length other than 32 fails before any state is touched. -/
def whenLength (len : Nat) (s : State) (k : Host.Outcome State Fault Refusal) : Host.Outcome State Fault Refusal :=
  if len = Config.seedBytes then k else .next (s.fail .invalidSeedLength)

/-- R103, R147, check 3: a command that draws from S needs SEEDED = 1. -/
def whenSeeded (s : State) (k : Host.Outcome State Fault Refusal) : Host.Outcome State Fault Refusal :=
  if s.SEEDED then k else .next (s.fail .notSeeded)

/-- R102: the state that a draw from `p` leaves. -/
def State.drawn (s : State) (p : Prng) : State :=
  { s with S := some (xoshiro p).2, OUT := some (xoshiro p).1, OUT_VALID := true }

/-- R102: `Draw()`, then `k` with the value drawn and the state left; UNWRITTEN_READ where S holds no value (R36). -/
def withDraw (s : State) (k : Word → State → Host.Outcome State Fault Refusal) : Host.Outcome State Fault Refusal :=
  match s.S with
  | some p => k (xoshiro p).1 (s.drawn p)
  | none => .fault .unwrittenRead

/-- R121: `SeedLoad()`. -/
def State.seedLoad (s : State) : State := { s with S := some (prngOfSeed s.SEED), SEEDED := true }

/-- R146, R147: the acceptance of a generation, ERR apart. -/
def State.startGeneration (s : State) : State :=
  { s with MATRIX_VALID := false, ATTEMPTS := 0, ROW := 0, BLK := 0, PHASE := .fill }

/-- R201: the end of a running generation, ERR apart. -/
def State.stopGeneration (s : State) : State := { s with PHASE := .idle, ROW := 0, BLK := 0 }

/-- R251: XMG takes its reset values. What the host still has to do, the order of steps, what the host has seen and the
rank checker are no part of XMG, and stay. -/
def State.resetDevice (s : State) : State :=
  { State.reset with host := s.host, turns := s.turns, log := s.log, rankTable := s.rankTable }

/-- R59: a seed staging register takes a value. -/
def State.setSeed (s : State) (w : Fin 4) (v : Word) : State := { s with SEED := s.SEED.set w.val v }

/-- R87, R220: the host sees the outcome of an access. -/
def State.record (s : State) (r : Response) : State := { s with log := r :: s.log }

end Sys2Proof.Machine
end

