-- ==== Sys2Proof/Machine/Control.lean ====
section
/-! DEFINITION. The control commands (spec/44_control.md). -/

namespace Sys2Proof.Machine

/-- NOP, R200: nothing changes, in every phase. -/
def execNop (s : State) : Host.Outcome State Fault Refusal := .next s

/-- ABORT, R201: a running generation stops with ERR = ABORTED; in PHASE = IDLE nothing changes. -/
def execAbort (s : State) : Host.Outcome State Fault Refusal :=
  if s.PHASE = .idle then .next s else .next (s.stopGeneration.setErr .aborted)

end Sys2Proof.Machine
end

