-- ==== Sys2Proof/Machine/RankChecker.lean ====
section
/-! DEFINITION. The rank port (spec/43_rank_checker.md R180 to R187) and the reference rank function behind it (R183):
Gaussian elimination over exact rationals (R184) with the factor fixed before the inner loop (spec/90_conflicts.md C5). It
is written for n rows and n columns; XMG's n is 64. -/

namespace Sys2Proof.Machine

/-- R15, R182: CheckMatrix, the rank checker's own copy, over the rationals. -/
abbrev CheckMatrix (n : Nat) := Vector (Vector Rat n) n

/-- The entry in row r and column c. No index that RefRank uses is outside; 0 stands there to make this total. -/
def CheckMatrix.at {n : Nat} (m : CheckMatrix n) (r c : Nat) : Rat :=
  match m[r]? with
  | some row => row[c]?.getD 0
  | none => 0

/-- The matrix whose entry in row r and column c is `f r c`. -/
def CheckMatrix.of (n : Nat) (f : Nat → Nat → Rat) : CheckMatrix n :=
  Vector.ofFn fun r : Fin n => Vector.ofFn fun c : Fin n => f r.val c.val

/-- R183: subtract from every other row, in the first `rank` columns, its multiple of row `row` that clears column `row`. -/
def CheckMatrix.eliminate {n : Nat} (m : CheckMatrix n) (rank row : Nat) : CheckMatrix n :=
  let pivot := m.at row row
  Vector.ofFn fun col : Fin n =>
    let mult := m.at col.val row / pivot
    Vector.ofFn fun i : Fin n =>
      if col.val ≠ row ∧ i.val < rank then m.at col.val i.val - mult * m.at row i.val else m.at col.val i.val

/-- R183: swap rows `row` and `p` in the first `rank` columns. -/
def CheckMatrix.swapRows {n : Nat} (m : CheckMatrix n) (rank row p : Nat) : CheckMatrix n :=
  CheckMatrix.of n fun r c =>
    if c < rank then (if r = row then m.at p c else if r = p then m.at row c else m.at r c) else m.at r c

/-- R183: column `last` moves into column `row`. -/
def CheckMatrix.moveColumn {n : Nat} (m : CheckMatrix n) (row last : Nat) : CheckMatrix n :=
  CheckMatrix.of n fun r c => if c = row then m.at r last else m.at r c

/-- R183, R186: the least row below `row` with a non-zero entry in column `row`. -/
def CheckMatrix.lowerPivot {n : Nat} (m : CheckMatrix n) (row : Nat) : Option Nat :=
  (List.range n).find? fun i => decide (row < i) && !(m.at i row == 0)

/-- The working values of RefRank's loop (R183). -/
structure RankLoop (n : Nat) where
  m : CheckMatrix n
  rank : Nat
  row : Nat
deriving DecidableEq, Repr

/-- R183: one iteration of the while loop; none when `row >= rank` ends it. -/
def RankLoop.iterate {n : Nat} (l : RankLoop n) : Option (RankLoop n) :=
  if l.row < l.rank then
    if l.m.at l.row l.row ≠ 0 then
      some { l with m := l.m.eliminate l.rank l.row, row := l.row + 1 }
    else
      match l.m.lowerPivot l.row with
      | some p => some { l with m := l.m.swapRows l.rank l.row p }
      | none => some { l with m := l.m.moveColumn l.row (l.rank - 1), rank := l.rank - 1 }
  else none

/-- At most `fuel` iterations of the loop. -/
def RankLoop.run {n : Nat} : Nat → RankLoop n → RankLoop n
  | 0, l => l
  | fuel + 1, l =>
    match l.iterate with
    | some l' => RankLoop.run fuel l'
    | none => l

/-- R183: the loop's start. -/
def RankLoop.start {n : Nat} (m : CheckMatrix n) : RankLoop n := ⟨m, n, 0⟩

/-- R183, R188: the rank that the loop ends with; it ends after at most 2n iterations. -/
def rankOf {n : Nat} (m : CheckMatrix n) : Nat := (RankLoop.run (2 * n) (RankLoop.start m)).rank

/-- R183: the entries of the matrix as rationals, an independent copy (R182). -/
def checkMatrix (a : Mat64) : CheckMatrix 64 := a.map fun r => r.map fun e => (e.toNat : Rat)

/-- R183: `RefRank(A)`. -/
def refRank (a : Mat64) : Nat := rankOf (checkMatrix a)

/-- The answer that the table gives for a matrix, if it lists it; the first one where it lists it twice. -/
def rankLookup (t : RankTable) (a : Mat64) : Option (BitVec 7) :=
  (t.find? fun e => decide (e.1 = a)).map Prod.snd

/-- R180: the rank port's answer for a matrix: the table's, or the exact rank. A function of the matrix alone. -/
def rankFn (t : RankTable) (a : Mat64) : BitVec 7 :=
  match rankLookup t a with
  | some r => r
  | none => BitVec.ofNat 7 (refRank a)

end Sys2Proof.Machine
end

