-- ==== Sys2Proof/Machine/MatrixGenerator.lean ====
section
/-! DEFINITION. The matrix generator (spec/42_matrix_generator.md): the commands GEN_SEEDED and GEN_CONTINUE, and the
engine agent's micro-steps FILL and CHECK. -/

namespace Sys2Proof.Machine

/-! ### The commands -/

/-- GEN_SEEDED, R146, after R85's check 2: the acceptance; the engine does the rest. -/
def execGenSeeded (len : Nat) (s : State) : Host.Outcome State Fault Refusal :=
  whenIdle s <| whenLength len s <| .next (s.seedLoad.startGeneration.setErr .none)

/-- GEN_CONTINUE, R147, after R85's check 2: the acceptance. -/
def execGenContinue (s : State) : Host.Outcome State Fault Refusal :=
  whenIdle s <| whenSeeded s <| .next (s.startGeneration.setErr .none)

/-! ### The engine's micro-steps -/

/-- R142: the sequencer's position after a FILL micro-step. -/
def State.advance (s : State) : State :=
  if s.BLK < 3 then { s with BLK := s.BLK + 1 }
  else if s.ROW < 63 then { s with BLK := 0, ROW := s.ROW + 1 }
  else { s with BLK := 0, ROW := 0, PHASE := .check }

/-- R141: the draw `v` fills the sequencer's block. -/
def State.store (s : State) (v : Word) : State := { s with MAT := unpack s.MAT s.ROW s.BLK v }

/-- R142: FILL. -/
def fillStep (s : State) : Host.Outcome State Fault Refusal :=
  withDraw s fun v t => .next (t.store v).advance

/-- R143: the rank answer `r` is recorded and the attempt counted. -/
def State.countRank (s : State) (r : BitVec 7) : State :=
  { s with LAST_RANK := r, ATTEMPTS := countAttempt s.ATTEMPTS }

/-- R143: what CHECK does with a legal answer: accept 64, retry on any other. -/
def State.judge (s : State) (r : BitVec 7) : State :=
  if r.toNat = Config.fullRank then { s.countRank r with MATRIX_VALID := true, PHASE := .idle }
  else { s.countRank r with PHASE := .fill }

/-- R143, R185: CHECK, one atomic step. An answer above 64 is RANK_PROTOCOL (R187), an unwritten entry UNWRITTEN_READ
(R36). -/
def checkStep (s : State) : Host.Outcome State Fault Refusal :=
  match snapshot s.MAT with
  | none => .fault .unwrittenRead
  | some a =>
    let r := rankFn s.rankTable a
    if r.toNat ≤ Config.fullRank then .next (s.judge r) else .fault .rankProtocol

/-- R16, R33: the engine's step; in PHASE = IDLE it takes none. -/
def engineStep (s : State) : Host.Outcome State Fault Refusal :=
  match s.PHASE with
  | .idle => .next s
  | .fill => fillStep s
  | .check => checkStep s

end Sys2Proof.Machine
end

