-- ==== Sys2Proof/Machine/PrngEngine.lean ====
section
/-! DEFINITION. The command STEP (spec/40_prng_engine.md). -/

namespace Sys2Proof.Machine

/-- STEP, R103, after R85's check 2: one draw. -/
def execStep (s : State) : Host.Outcome State Fault Refusal :=
  whenIdle s <| whenSeeded s <| withDraw s fun _ t => .next (t.setErr .none)

end Sys2Proof.Machine
end

