-- ==== Sys2Proof/Machine/SeedLoader.lean ====
section
/-! DEFINITION. The command LOAD_SEED (spec/41_seed_loader.md). -/

namespace Sys2Proof.Machine

/-- LOAD_SEED, R123, after R85's check 2. -/
def execLoadSeed (len : Nat) (s : State) : Host.Outcome State Fault Refusal :=
  whenIdle s <| whenLength len s <| .next (s.seedLoad.setErr .none)

end Sys2Proof.Machine
end

