-- ==== Sys2Proof/Machine/Dispatch.lean ====
section
/-! DEFINITION. One arm per command (spec/30_encoding.md R85, after decoding). -/

namespace Sys2Proof.Machine

def exec (i : Instr) (s : State) : Host.Outcome State Fault Refusal :=
  match i with
  | .nop => Sys2Proof.Machine.execNop s
  | .loadSeed len => Sys2Proof.Machine.execLoadSeed len s
  | .step => Sys2Proof.Machine.execStep s
  | .genSeeded len => Sys2Proof.Machine.execGenSeeded len s
  | .genContinue => Sys2Proof.Machine.execGenContinue s
  | .abort => Sys2Proof.Machine.execAbort s

end Sys2Proof.Machine
end

