-- ==== Sys2Proof/Machine/Window.lean ====
section
/-! DEFINITION. The host register window (spec/20_memory.md): the register map (R52), `MemRead` (R58), `MemWrite` (R59)
and the execution of a CMD write (spec/30_encoding.md R85). -/

namespace Sys2Proof.Machine

/-- R52: the registers of the window. -/
inductive Reg where
  | cmd
  | status
  | out
  | attempts
  | seed (w : Fin 4)
  | s (w : Fin 4)
  | matw (w : Fin 256)
deriving DecidableEq, Repr

/-- R52: where each register stands. -/
def Reg.offset : Reg → Offset
  | .cmd => 0x000
  | .status => 0x008
  | .out => 0x010
  | .attempts => 0x018
  | .seed w => BitVec.ofNat 12 (0x020 + 8 * w.val)
  | .s w => BitVec.ofNat 12 (0x040 + 8 * w.val)
  | .matw w => BitVec.ofNat 12 (0x100 + 8 * w.val)

/-- R52: the register at an 8-byte-aligned offset; none at a reserved one. -/
def regAt (off : Offset) : Option Reg :=
  let n := off.toNat
  if n = 0x000 then some .cmd
  else if n = 0x008 then some .status
  else if n = 0x010 then some .out
  else if n = 0x018 then some .attempts
  else if n < 0x040 then some (.seed (Fin.ofNat 4 ((n - 0x020) / 8)))
  else if n < 0x060 then some (.s (Fin.ofNat 4 ((n - 0x040) / 8)))
  else if n < 0x100 then none
  else if n < 0x900 then some (.matw (Fin.ofNat 256 ((n - 0x100) / 8)))
  else none

/-- R54, R55: the access is 8 bytes wide at a multiple of 8. -/
def accessOk (off : Offset) (size : Nat) : Bool := decide (size = 8 ∧ off.toNat % 8 = 0)

/-- A guarded read (R58): BUSERR unless the guard holds, else the value; UNWRITTEN_READ where there is none (R36). -/
def guarded (guard : Bool) (v : Option Word) : Except Fault Response :=
  if guard then
    match v with
    | some w => .ok (.data w)
    | none => .error .unwrittenRead
  else .ok .busErr

/-- R58: the value that a read of each register returns. -/
def readReg (s : State) : Reg → Except Fault Response
  | .cmd => .ok .busErr
  | .status => .ok (.data s.status)
  | .out => guarded (!s.busy && s.OUT_VALID) s.OUT
  | .attempts => .ok (.data (s.ATTEMPTS.setWidth 64))
  | .seed w => .ok (.data s.SEED[w.val])
  | .s w => guarded (!s.busy && s.SEEDED) (s.S.map fun p => p.word w)
  | .matw w => guarded (!s.busy && s.MATRIX_VALID) (matrixWord s.MAT w)

/-- R58: `MemRead(off, size)`. It changes no state, so it answers the response alone. -/
def memRead (s : State) (off : Offset) (size : Nat) : Except Fault Response :=
  if accessOk off size then
    match regAt off with
    | some r => readReg s r
    | none => .ok .busErr
  else .ok .busErr

/-- R85: `Execute(cmd)`, with check 1 here and the later checks in the meanings. -/
def execute (w : Word) (s : State) : Host.Outcome State Fault Refusal :=
  match decode w with
  | .command i => exec i s
  | .bad _ => .next (s.fail .badCommand)

/-- R59: `MemWrite(off, size, v)`. The host sees `done` for a write that the window accepts (a command's own outcome is in
ERR, R222) and `busErr` for one that it drops (R220). -/
def memWrite (s : State) (off : Offset) (size : Nat) (v : Word) : Host.Outcome State Fault Refusal :=
  if accessOk off size then
    match regAt off with
    | some .cmd => execute v (s.record .done)
    | some (.seed w) => .next ((s.record .done).setSeed w v)
    | some .status => .next (s.record .busErr)
    | some .out => .next (s.record .busErr)
    | some .attempts => .next (s.record .busErr)
    | some (.s _) => .next (s.record .busErr)
    | some (.matw _) => .next (s.record .busErr)
    | none => .next (s.record .busErr)
  else .next (s.record .busErr)

/-- R56: the byte at offset `off` as a host that views the window as bytes numbers it: the register that holds it, read
whole (the only width there is, R54), and its byte; none where that read is a bus error. -/
def windowByte (s : State) (off : Offset) : Option Byte :=
  match memRead s (BitVec.ofNat 12 (off.toNat - off.toNat % 8)) 8 with
  | .ok (.data v) => some (byteOf v (off.toNat % 8))
  | .ok .done => none
  | .ok .busErr => none
  | .error _ => none

end Sys2Proof.Machine
end

