-- ==== Sys2Proof/Machine/HostAgent.lean ====
section
/-! DEFINITION. The host agent (spec/00_scope.md R16; spec/30_encoding.md R87) and the order of steps
(spec/20_memory.md R62; spec/70_reset_and_hazards.md R260). -/

namespace Sys2Proof.Machine

/-- R87 POLL: the read's result ends the polling. A bus error returns no result (R220), so it does not. -/
def pollEnds (mask v : Word) : Response → Bool
  | .data r => (r &&& mask) == v
  | .done => false
  | .busErr => false

/-- The host's next operation is behind it. -/
def State.popHost (s : State) : State := { s with host := s.host.tail }

/-- A read, with what the host does next: `k` of the response, on a state that has it recorded. -/
def withRead (s : State) (off : Offset) (size : Nat) (k : Response → State → State) :
    Host.Outcome State Fault Refusal :=
  match memRead s off size with
  | .ok r => .next (k r (s.record r))
  | .error f => .fault f

/-- One operation of the host (R16, R87), atomic (R60, R250). -/
def hostOp (s : State) : HostOp → Host.Outcome State Fault Refusal
  | .read off size => withRead s off size fun _ t => t.popHost
  | .write off size v => memWrite s.popHost off size v
  | .poll off mask v => withRead s off 8 fun r t => if pollEnds mask v r then t.popHost else t
  | .reset => .next s.popHost.resetDevice

/-- The host's step: its next operation; nothing where it has none. -/
def hostStep (s : State) : Host.Outcome State Fault Refusal :=
  match s.host with
  | op :: _ => hostOp s op
  | [] => .next s

/-- Whose step is next (R62): the head of `turns`; when `turns` is used up, the engine's while PHASE ≠ IDLE (so that every
run is weakly fair to it, R260), else the host's (notes/assumptions/2.md). -/
def nextAgent (s : State) : Agent :=
  match s.turns with
  | a :: _ => a
  | [] => if s.busy then .engine else .host

/-- The step that `nextAgent` chose is behind the order of steps. -/
def State.takeTurn (s : State) : State := { s with turns := s.turns.tail }

/-- The step of an agent. -/
def agentStep (a : Agent) (s : State) : Host.Outcome State Fault Refusal :=
  match a with
  | .host => hostStep s
  | .engine => engineStep s

end Sys2Proof.Machine
end

