-- ==== Sys2Proof/Machine/Step.lean ====
section
/-! DEFINITION. One step of the total order of R62: a host operation, an engine micro-step, or nothing where the agent
whose step it is has nothing to do. -/

namespace Sys2Proof.Machine

/-- One step (R62). -/
def step (s : State) : Host.Outcome State Fault Refusal := agentStep (nextAgent s) s.takeTurn

/-- The command word whose bits are `w` is what the host writes to CMD in the very next step (R80: a command comes as a
CMD write and no other way). -/
def State.withFetchWord (s : State) (nbits w : Nat) : State :=
  { s with
    host := HostOp.write Reg.cmd.offset 8 (BitVec.ofNat 64 (w % 2 ^ nbits)) :: s.host
    turns := Agent.host :: s.turns }

end Sys2Proof.Machine
end

