-- ==== Sys2Proof/Machine/Asm.lean ====
section
/-! DEFINITION. The host program syntax (spec/30_encoding.md R87, R88): statements, pseudo-instructions and what they
expand to. -/

namespace Sys2Proof.Machine

/-- R87, R88: the statements and pseudo-instructions of a host program. -/
inductive Stmt where
  /-- `WR <off>, <v64>` -/
  | wr (off : Offset) (v : Word)
  /-- `RD <off>` -/
  | rd (off : Offset)
  /-- `RD <off> => <v64>` or `RD <off> => BUSERR`; the expectation is the author's, no action of the device -/
  | rdExpect (off : Offset) (expected : Response)
  /-- `POLL <off>, <mask>, <v64>` -/
  | poll (off : Offset) (mask v : Word)
  /-- `RESET` -/
  | reset
  /-- `CMD <mnemonic> [len=<n>]` -/
  | cmd (i : Instr)
  /-- `CMD.RAW <v64>` -/
  | cmdRaw (v : Word)
  /-- `SEEDB b0 b1 … b31` -/
  | seedb (b : Vector Byte 32)
  /-- `SEEDW w0, w1, w2, w3` -/
  | seedw (w0 w1 w2 w3 : Word)
  /-- `WAIT` -/
  | wait
  /-- `GENERATE [len=<n>]`; a missing `len=` means 32 (R87) -/
  | generate (len : Nat := Config.seedBytes)
deriving DecidableEq, Repr

/-- `CMD LOAD_SEED [len=<n>]`: a missing `len=` means 32 (R87). -/
def Stmt.loadSeed (len : Nat := Config.seedBytes) : Stmt := .cmd (.loadSeed len)

/-- `CMD GEN_SEEDED [len=<n>]`: a missing `len=` means 32 (R87). -/
def Stmt.genSeeded (len : Nat := Config.seedBytes) : Stmt := .cmd (.genSeeded len)

/-- `WR <off>, <v64>`: `MemWrite(off, 8, v64)`. -/
def wrOp (off : Offset) (v : Word) : HostOp := .write off 8 v

/-- `SEEDW w0, w1, w2, w3` (R88). -/
def stageOps (w0 w1 w2 w3 : Word) : List HostOp :=
  [wrOp (Reg.seed 0).offset w0, wrOp (Reg.seed 1).offset w1, wrOp (Reg.seed 2).offset w2, wrOp (Reg.seed 3).offset w3]

/-- `WAIT` (R88): poll STATUS until BUSY = 0. -/
def waitOp : HostOp := .poll Reg.status.offset 0x1 0x0

/-- R87, R88: what each statement has the host do. -/
def Stmt.expand : Stmt → List HostOp
  | .wr off v => [wrOp off v]
  | .rd off => [.read off 8]
  | .rdExpect off _ => [.read off 8]
  | .poll off mask v => [.poll off mask v]
  | .reset => [.reset]
  | .cmd i => [wrOp Reg.cmd.offset (encode i)]
  | .cmdRaw v => [wrOp Reg.cmd.offset v]
  | .seedb b => stageOps (packSeed b 0) (packSeed b 1) (packSeed b 2) (packSeed b 3)
  | .seedw w0 w1 w2 w3 => stageOps w0 w1 w2 w3
  | .wait => [waitOp]
  | .generate len => [wrOp Reg.cmd.offset (encode (.genSeeded len)), waitOp]

/-- The host is given a program, after what it still has to do. -/
def State.load (s : State) (p : List Stmt) : State := { s with host := s.host ++ p.flatMap Stmt.expand }

end Sys2Proof.Machine
end

