-- ==== Sys2Proof/Safety.lean ====
section
/-! DEFINITION. The terms in which claims about XMG are stated: runs, the agent and the operation of a step, what two
states share, and the invariant of spec/10_state.md R34 with what it rests on. -/

namespace Sys2Proof.Machine

/-! ### Runs -/

/-- n steps, stopping at the first fault or refusal. -/
def run : Nat → State → Host.Outcome State Fault Refusal
  | 0, s => .next s
  | n + 1, s =>
    match step s with
    | .next t => run n t
    | .fault f => .fault f
    | .refused r => .refused r

/-- XMG after reset, with any host program, any order of steps and any rank checker. -/
def Initial (s : State) : Prop :=
  ∃ h ts tbl, s = { State.reset with host := h, turns := ts, rankTable := tbl }

/-- `t` is reached from `s` in some number of steps. -/
def Reaches (s t : State) : Prop := ∃ n, run n s = .next t

/-- The next n steps are the engine's, and then come the steps that were ordered. -/
def State.withEngineTurns (s : State) (n : Nat) : State :=
  { s with turns := List.replicate n .engine ++ s.turns }

/-! ### What the next step is -/

/-- The next step is the engine's. -/
def engineNow (s : State) : Prop := nextAgent s = .engine

/-- The next step is the host's, and does `op`. -/
def hostNow (s : State) (op : HostOp) : Prop := nextAgent s = .host ∧ s.host.head? = some op

/-- The next step is the host's write to CMD of a word that decodes to `i`. -/
def commandNow (s : State) (i : Instr) : Prop := ∃ w, decode w = .command i ∧ hostNow s (.write 0x000 8 w)

/-- The next step is the host's write to CMD of a word that decodes to BAD. -/
def badCommandNow (s : State) : Prop := ∃ w why, decode w = .bad why ∧ hostNow s (.write 0x000 8 w)

/-! ### What two states share -/

/-- All that a generation works on, and the rank checker: everything of XMG but SEED and ERR. -/
structure SameGenerator (s t : State) : Prop where
  S : t.S = s.S
  OUT : t.OUT = s.OUT
  MAT : t.MAT = s.MAT
  SEEDED : t.SEEDED = s.SEEDED
  OUT_VALID : t.OUT_VALID = s.OUT_VALID
  MATRIX_VALID : t.MATRIX_VALID = s.MATRIX_VALID
  LAST_RANK : t.LAST_RANK = s.LAST_RANK
  ATTEMPTS : t.ATTEMPTS = s.ATTEMPTS
  PHASE : t.PHASE = s.PHASE
  ROW : t.ROW = s.ROW
  BLK : t.BLK = s.BLK
  rankTable : t.rankTable = s.rankTable

/-- All of R20: every state element of XMG. -/
structure SameXmg (s t : State) : Prop extends SameGenerator s t where
  SEED : t.SEED = s.SEED
  ERR : t.ERR = s.ERR

/-! ### The invariant (R34, R36) -/

/-- How many draws of the current attempt are in the matrix store (R33, R140). -/
def State.progress (s : State) : Nat :=
  match s.PHASE with
  | .idle => 0
  | .fill => 4 * s.ROW.val + s.BLK.val
  | .check => 256

/-- The first n draws of the stream from `p` stand in the matrix store, each in its block (R140, R141). -/
def FilledFrom (m : MatrixStore) (p : Prng) (n : Nat) : Prop :=
  ∀ i j : Fin 64, 4 * i.val + j.val / 16 < n →
    m[i.val][j.val] = some (nibble (p.draw (4 * i.val + j.val / 16)) (j.val % 16))

/-- R34, its six clauses, with S and the attempt's draws written out, and R36's reason why no rule reads an unwritten
value: the flags that guard S and OUT say exactly whether they hold one. -/
structure Inv (s : State) : Prop where
  /-- R34 (1) -/
  busy_seeded : s.PHASE ≠ .idle → s.SEEDED = true ∧ s.MATRIX_VALID = false
  /-- R34 (2) -/
  check_home : s.PHASE = .check → s.ROW = 0 ∧ s.BLK = 0
  /-- R34 (3), and before CHECK the blocks filled so far; S is the stream's state after those draws (R144) -/
  attempt : s.PHASE ≠ .idle → ∃ p, s.S = some (p.after s.progress) ∧ FilledFrom s.MAT p s.progress
  /-- R34 (4) -/
  accepted : s.MATRIX_VALID = true → ∃ p, FilledFrom s.MAT p 256 ∧ rankFn s.rankTable (attemptMatrix p) = 64
  /-- R34 (5) -/
  valid_seeded : s.MATRIX_VALID = true → s.SEEDED = true
  /-- R34 (6) -/
  out_seeded : s.OUT_VALID = true → s.SEEDED = true
  /-- R25, R36 -/
  seeded_written : s.SEEDED = s.S.isSome
  /-- R26, R36 -/
  out_written : s.OUT_VALID = s.OUT.isSome
  /-- R29: 0..64 -/
  rank_legal : s.LAST_RANK.toNat ≤ 64

/-! ### The rank checker (R180, R187) -/

/-- Every answer is one of 0..64 (R187). -/
def RankTable.Legal (t : RankTable) : Prop := ∀ e ∈ t, e.2.toNat ≤ 64

/-- Every answer is the one that RefRank gives (R180, R183). -/
def RankTable.Exact (t : RankTable) : Prop := ∀ a, rankFn t a = BitVec.ofNat 7 (refRank a)

/-- A generation from the all-zero state, at any point of it, with a rank checker that answers as RefRank does (R149): S is
all zero, and so is what the attempt has stored. -/
structure ZeroGeneration (s : State) : Prop where
  busy : s.PHASE ≠ .idle
  zero : s.S = some ⟨0, 0, 0, 0⟩
  check_home : s.PHASE = .check → s.ROW = 0 ∧ s.BLK = 0
  filled : ∀ i j : Fin 64, 4 * i.val + j.val / 16 < s.progress → s.MAT[i.val][j.val] = some 0
  exact : s.rankTable.Exact

/-- A safe step: no fault and no refusal. -/
def SafeStep (s : State) : Prop := ∃ t, step s = .next t

end Sys2Proof.Machine
end

