-- ==== Sys2Proof/Certificates/Slice0/Obligations.lean ====
section
/-! DEFINITION. The statements about XMG, for the provers. Each docstring names the rule of spec/ that it states, or what
it is derived from. -/

open Sys2Proof Sys2Proof.Machine

/-! ### Encoding (spec/30_encoding.md) -/

/-- R81 to R84: no bit of a command is lost on its way through the command word. -/
def Obligations.DecodeOfEncodeIsTheCommand : Prop :=
  ∀ i : Instr, i.wf = true → decode (encode i) = .command i

/-- R81 to R84: a command has one word only, and every command that decoding gives is well formed. -/
def Obligations.EncodeOfDecodeIsTheWord : Prop :=
  ∀ (w : Word) (i : Instr), decode w = .command i → i.wf = true ∧ encode i = w

/-- R84: decoding, on the word's digits as a number, and its last sentence on the table of match and mask (R83). -/
def Obligations.DecodeFollowsTheOpcodeMap : Prop :=
  ∀ w : Word,
    let op := w.toNat % 2 ^ 4
    let rsv0 := w.toNat / 2 ^ 4 % 2 ^ 4
    let len := w.toNat / 2 ^ 8 % 2 ^ 16
    let rsv1 := w.toNat / 2 ^ 24
    let isBad := ∃ why, decode w = .bad why
    (rsv0 ≠ 0 ∨ rsv1 ≠ 0 → isBad) ∧
    (rsv0 = 0 → rsv1 = 0 →
      (op = 0x0 → len = 0 → decode w = .command .nop) ∧ (op = 0x0 → len ≠ 0 → isBad) ∧
      (op = 0x1 → decode w = .command (.loadSeed len)) ∧
      (op = 0x2 → len = 0 → decode w = .command .step) ∧ (op = 0x2 → len ≠ 0 → isBad) ∧
      (op = 0x3 → decode w = .command (.genSeeded len)) ∧
      (op = 0x4 → len = 0 → decode w = .command .genContinue) ∧ (op = 0x4 → len ≠ 0 → isBad) ∧
      (op = 0xF → len = 0 → decode w = .command .abort) ∧ (op = 0xF → len ≠ 0 → isBad) ∧
      (0x5 ≤ op → op ≤ 0xE → isBad)) ∧
    ((∃ i, decode w = .command i) ↔ ∃ r ∈ opcodeTable, r.hits w = true) ∧
    (∀ r₁ ∈ opcodeTable, ∀ r₂ ∈ opcodeTable, r₁.hits w = true → r₂.hits w = true → r₁ = r₂)

/-- R86: the reserved and illegal words, and what executing one does, in every phase. -/
def Obligations.ReservedWordsOnlySetBadCommand : Prop :=
  ∀ (w : Word) (s : State),
    (0x5 ≤ w.toNat % 2 ^ 4 ∧ w.toNat % 2 ^ 4 ≤ 0xE) ∨ w.toNat / 2 ^ 4 % 2 ^ 4 ≠ 0 ∨ w.toNat / 2 ^ 24 ≠ 0 ∨
      (w.toNat / 2 ^ 8 % 2 ^ 16 ≠ 0 ∧ w.toNat % 2 ^ 4 ∈ [0x0, 0x2, 0x4, 0xF]) →
    (∃ why, decode w = .bad why) ∧ execute w s = .next { s with ERR := .badCommand }

/-- R83: words written out from the fields of R81, and illegal ones (spec/95_test_vectors.md, 2.6). -/
def Obligations.WrittenOutWordsDecode : Prop :=
  decode 0x0000000000000000 = .command .nop ∧ decode 0x0000000000002001 = .command (.loadSeed 32) ∧
  decode 0x0000000000FFFF01 = .command (.loadSeed 65535) ∧ decode 0x0000000000000002 = .command .step ∧
  decode 0x0000000000002003 = .command (.genSeeded 32) ∧ decode 0x0000000000000004 = .command .genContinue ∧
  decode 0x000000000000000F = .command .abort ∧ decode 0x0000000000000102 = .bad .lengthNotZero ∧
  decode 0x0000000000000012 = .bad .reservedBits ∧ decode 0x0000000001000000 = .bad .reservedBits ∧
  decode 0x0000000000000005 = .bad .reservedOpcode ∧ decode 0x000000000000000E = .bad .reservedOpcode

/-- From R125 and R122: a host that keeps its duty presents no wrong length as 32; one that wraps the length does. The last
clause rests on how the model encodes a length that does not fit (notes/assumptions/8.md, the model's choice). -/
def Obligations.SaturatedLengthNeverAliases : Prop :=
  (∀ n : Nat, decode (encode (.loadSeed (declaredLen n))) = .command (.loadSeed (min n 0xFFFF)) ∧
    decode (encode (.genSeeded (declaredLen n))) = .command (.genSeeded (min n 0xFFFF)) ∧
    (declaredLen n = 32 ↔ n = 32)) ∧
  decode (encode (.loadSeed 65568)) = .command (.loadSeed 32)

/-! ### A step runs what it should (spec/20_memory.md, spec/30_encoding.md) -/

/-- R59, R80, R85: a step in which the host writes a command's word to CMD is `exec` of that command, on the state with the
host's operation and the turn behind it and the accepted write seen by the host; and so is the step that `withFetchWord`
prepares. -/
def Obligations.StepRunsTheDecodedCommand : Prop :=
  (∀ (s : State) (w : Word) (i : Instr) (rest : List HostOp),
    nextAgent s = .host → s.host = .write 0x000 8 w :: rest → decode w = .command i →
    step s = exec i { s with host := rest, turns := s.turns.tail, log := .done :: s.log }) ∧
  (∀ (s : State) (w : Word) (i : Instr), decode w = .command i →
    step (s.withFetchWord 64 w.toNat) = exec i { s with log := .done :: s.log })

/-- R16, R62: the order of steps. Whose step it is when `turns` is used up, and that an agent with nothing to do leaves the
state as it is, is the model's choice (notes/assumptions/2.md). -/
def Obligations.StepIsTheChosenAgents : Prop :=
  ∀ s : State,
    (∀ ts, s.turns = .engine :: ts → step s = engineStep { s with turns := ts }) ∧
    (∀ ts op rest, s.turns = .host :: ts → s.host = op :: rest → step s = hostOp { s with turns := ts } op) ∧
    (∀ ts, s.turns = .host :: ts → s.host = [] → step s = .next { s with turns := ts }) ∧
    (s.turns = [] → s.PHASE ≠ .idle → step s = engineStep s) ∧
    (∀ op rest, s.turns = [] → s.PHASE = .idle → s.host = op :: rest → step s = hostOp s op) ∧
    (s.turns = [] → s.PHASE = .idle → s.host = [] → step s = .next s) ∧
    (s.PHASE = .idle → engineStep s = .next s)

/-! ### The commands: result, errors and frame in one equation each -/

/-- R200: NOP. -/
def Obligations.NopChangesNothing : Prop :=
  (∀ s : State, exec .nop s = .next s) ∧
  (∀ w : Word, decode w = .command .nop ↔ w = 0) ∧
  (∀ (w : Word) (s : State), w.toNat % 2 ^ 4 = 0 → w ≠ 0 → execute w s = .next { s with ERR := .badCommand })

/-- R201: ABORT, in every phase. -/
def Obligations.AbortStopsTheGeneration : Prop :=
  (∀ s : State, s.PHASE = .idle → exec .abort s = .next s) ∧
  (∀ s : State, s.PHASE ≠ .idle →
    exec .abort s = .next { s with PHASE := .idle, ROW := 0, BLK := 0, ERR := .aborted }) ∧
  (∀ w : Word, decode w = .command .abort ↔ w = 0x000000000000000F) ∧
  (∀ (w : Word) (s : State), w.toNat % 2 ^ 4 = 0xF → w ≠ 0x000000000000000F →
    execute w s = .next { s with ERR := .badCommand })

/-- R123, with R121 and R122: LOAD_SEED. -/
def Obligations.LoadSeedLoadsTheStagedSeed : Prop :=
  encode (.loadSeed 32) = 0x0000000000002001 ∧
  (∀ s : State, s.PHASE = .idle → exec (.loadSeed 32) s = .next { s with
    S := some ⟨s.SEED[0], s.SEED[1], s.SEED[2], s.SEED[3]⟩, SEEDED := true, ERR := .none }) ∧
  (∀ (s : State) (len : Nat), s.PHASE = .idle → len ≠ 32 →
    exec (.loadSeed len) s = .next { s with ERR := .invalidSeedLength }) ∧
  (∀ (s : State) (len : Nat), s.PHASE ≠ .idle → exec (.loadSeed len) s = .next { s with ERR := .busy })

/-- R103, with R101 and R102: STEP, with the datapath written out. -/
def Obligations.StepDrawsOnce : Prop :=
  encode .step = 0x0000000000000002 ∧
  (∀ (s : State) (s0 s1 s2 s3 : Word), s.PHASE = .idle → s.SEEDED = true → s.S = some ⟨s0, s1, s2, s3⟩ →
    exec .step s = .next { s with
      S := some ⟨s0 ^^^ (s3 ^^^ s1), s1 ^^^ (s2 ^^^ s0), (s2 ^^^ s0) ^^^ (s1 <<< 17),
        ((s3 ^^^ s1) <<< 45) ||| ((s3 ^^^ s1) >>> 19)⟩
      OUT := some ((((s0 + s3) <<< 23) ||| ((s0 + s3) >>> 41)) + s0)
      OUT_VALID := true
      ERR := .none }) ∧
  (∀ s : State, s.PHASE = .idle → s.SEEDED = false → exec .step s = .next { s with ERR := .notSeeded }) ∧
  (∀ s : State, s.PHASE ≠ .idle → exec .step s = .next { s with ERR := .busy })

/-- R146, the acceptance: GEN_SEEDED. -/
def Obligations.GenSeededStartsAGeneration : Prop :=
  encode (.genSeeded 32) = 0x0000000000002003 ∧
  (∀ s : State, s.PHASE = .idle → exec (.genSeeded 32) s = .next { s with
    S := some ⟨s.SEED[0], s.SEED[1], s.SEED[2], s.SEED[3]⟩, SEEDED := true, MATRIX_VALID := false, ATTEMPTS := 0,
    ROW := 0, BLK := 0, PHASE := .fill, ERR := .none }) ∧
  (∀ (s : State) (len : Nat), s.PHASE = .idle → len ≠ 32 →
    exec (.genSeeded len) s = .next { s with ERR := .invalidSeedLength }) ∧
  (∀ (s : State) (len : Nat), s.PHASE ≠ .idle → exec (.genSeeded len) s = .next { s with ERR := .busy })

/-- R147, the acceptance: GEN_CONTINUE. -/
def Obligations.GenContinueStartsAGeneration : Prop :=
  encode .genContinue = 0x0000000000000004 ∧
  (∀ s : State, s.PHASE = .idle → s.SEEDED = true → exec .genContinue s = .next { s with
    MATRIX_VALID := false, ATTEMPTS := 0, ROW := 0, BLK := 0, PHASE := .fill, ERR := .none }) ∧
  (∀ s : State, s.PHASE = .idle → s.SEEDED = false → exec .genContinue s = .next { s with ERR := .notSeeded }) ∧
  (∀ s : State, s.PHASE ≠ .idle → exec .genContinue s = .next { s with ERR := .busy })

/-- R222, R224: every command completes, wherever SEEDED tells the truth about S (R25), and none touches the seed, the
matrix, the last rank, or what is around XMG. -/
def Obligations.EveryCommandCompletes : Prop :=
  ∀ (i : Instr) (s : State), (s.SEEDED = true → s.S ≠ none) →
    ∃ t, exec i s = .next t ∧ t.SEED = s.SEED ∧ t.MAT = s.MAT ∧ t.LAST_RANK = s.LAST_RANK ∧
      t.host = s.host ∧ t.turns = s.turns ∧ t.log = s.log ∧ t.rankTable = s.rankTable

/-- R254: the busy hazard, its two clauses. -/
def Obligations.BusyRejectsDataCommandsAndReads : Prop :=
  ∀ s : State, s.PHASE ≠ .idle →
    (∀ len : Nat, ∀ i ∈ [Instr.loadSeed len, .step, .genSeeded len, .genContinue],
      exec i s = .next { s with ERR := .busy }) ∧
    memRead s 0x010 8 = .ok .busErr ∧
    (∀ w : Fin 4, memRead s (BitVec.ofNat 12 (0x040 + 8 * w.val)) 8 = .ok .busErr) ∧
    (∀ w : Fin 256, memRead s (BitVec.ofNat 12 (0x100 + 8 * w.val)) 8 = .ok .busErr)

/-! ### The engine's micro-steps (spec/42_matrix_generator.md) -/

/-- R142, with R101, R102 and R141: FILL, entry by entry, and what it leaves alone. -/
def Obligations.FillStoresTheDraw : Prop :=
  ∀ (s : State) (p : Prng), s.PHASE = .fill → s.S = some p → ∃ t, engineStep s = .next t ∧
    t.S = some p.next ∧ t.OUT = some p.out ∧ t.OUT_VALID = true ∧
    (∀ i j : Fin 64, t.MAT[i.val][j.val] =
      if i = s.ROW ∧ j.val / 16 = s.BLK.val then some (p.out.extractLsb' (60 - 4 * (j.val % 16)) 4)
      else s.MAT[i.val][j.val]) ∧
    (s.BLK.val < 3 → t.BLK.val = s.BLK.val + 1 ∧ t.ROW = s.ROW ∧ t.PHASE = .fill) ∧
    (s.BLK.val = 3 → s.ROW.val < 63 → t.BLK = 0 ∧ t.ROW.val = s.ROW.val + 1 ∧ t.PHASE = .fill) ∧
    (s.BLK.val = 3 → s.ROW.val = 63 → t.BLK = 0 ∧ t.ROW = 0 ∧ t.PHASE = .check) ∧
    t.SEED = s.SEED ∧ t.SEEDED = s.SEEDED ∧ t.MATRIX_VALID = s.MATRIX_VALID ∧ t.ERR = s.ERR ∧
    t.LAST_RANK = s.LAST_RANK ∧ t.ATTEMPTS = s.ATTEMPTS ∧
    t.host = s.host ∧ t.turns = s.turns ∧ t.log = s.log ∧ t.rankTable = s.rankTable

/-- R140, R142: the engine's 256 FILL micro-steps from row 0, block 0 end in CHECK with every entry written by the
attempt's draws, each in its place, and S after those draws. -/
def Obligations.AttemptFillsTheMatrix : Prop :=
  ∀ (s : State) (p : Prng), s.PHASE = .fill → s.ROW = 0 → s.BLK = 0 → s.S = some p →
    run 256 (s.withEngineTurns 256) = .next { s with
      S := some (p.after 256), OUT := some (p.draw 255), OUT_VALID := true,
      MAT := (attemptMatrix p).map fun r => r.map some, PHASE := .check }

/-- R143, R181, R182, R187: CHECK: what it does with the rank answer for the matrix the store holds. -/
def Obligations.CheckJudgesTheRank : Prop :=
  ∀ (s : State) (a : Mat64), s.PHASE = .check → (∀ i j : Fin 64, s.MAT[i.val][j.val] = some (a[i.val][j.val])) →
    let r := rankFn s.rankTable a
    let attempts := BitVec.ofNat 32 (min (s.ATTEMPTS.toNat + 1) (2 ^ 32 - 1))
    (r = 64 → engineStep s = .next { s with
      LAST_RANK := r, ATTEMPTS := attempts, MATRIX_VALID := true, PHASE := .idle }) ∧
    (r.toNat < 64 → engineStep s = .next { s with LAST_RANK := r, ATTEMPTS := attempts, PHASE := .fill }) ∧
    (64 < r.toNat → engineStep s = .fault .rankProtocol)

/-- R36, R237: a rule that reads a state element without a value stops with UNWRITTEN_READ: the draw of STEP and of FILL,
CHECK's copy of the matrix, and the guarded host reads. -/
def Obligations.UnwrittenReadsFault : Prop :=
  (∀ s : State, s.PHASE = .idle → s.SEEDED = true → s.S = none → exec .step s = .fault .unwrittenRead) ∧
  (∀ s : State, s.PHASE = .fill → s.S = none → engineStep s = .fault .unwrittenRead) ∧
  (∀ s : State, s.PHASE = .check → (∃ i j : Fin 64, s.MAT[i.val][j.val] = none) →
    engineStep s = .fault .unwrittenRead) ∧
  (∀ s : State, s.PHASE = .idle → s.OUT_VALID = true → s.OUT = none →
    memRead s 0x010 8 = .error .unwrittenRead) ∧
  (∀ s : State, s.PHASE = .idle → s.SEEDED = true → s.S = none →
    ∀ w : Fin 4, memRead s (BitVec.ofNat 12 (0x040 + 8 * w.val)) 8 = .error .unwrittenRead) ∧
  (∀ s : State, s.PHASE = .idle → s.MATRIX_VALID = true → ∀ i : Fin 64, ∀ b : Fin 4, ∀ k : Fin 16,
    s.MAT[i.val][16 * b.val + k.val] = none →
    memRead s (BitVec.ofNat 12 (0x100 + 8 * (4 * i.val + b.val))) 8 = .error .unwrittenRead)

/-! ### Who writes what, over every step (spec/10_state.md, spec/60_exceptions.md) -/

/-- R225, in the order of R226 and with the codes' causes of R223: ERR after any step. -/
def Obligations.ErrIsWrittenByItsEventsOnly : Prop :=
  ∀ s t : State, step s = .next t →
    (engineNow s → t.ERR = s.ERR) ∧
    (nextAgent s = .host → s.host = [] → t.ERR = s.ERR) ∧
    (∀ off size, hostNow s (.read off size) → t.ERR = s.ERR) ∧
    (∀ off mask v, hostNow s (.poll off mask v) → t.ERR = s.ERR) ∧
    (∀ off size v, hostNow s (.write off size v) → off ≠ 0x000 ∨ size ≠ 8 → t.ERR = s.ERR) ∧
    (hostNow s .reset → t.ERR = .none) ∧
    (badCommandNow s → t.ERR = .badCommand) ∧
    (commandNow s .nop → t.ERR = s.ERR) ∧
    (commandNow s .abort → t.ERR = if s.PHASE = .idle then s.ERR else .aborted) ∧
    (∀ len, commandNow s (.loadSeed len) ∨ commandNow s (.genSeeded len) →
      t.ERR = if s.PHASE ≠ .idle then .busy else if len ≠ 32 then .invalidSeedLength else .none) ∧
    (commandNow s .step ∨ commandNow s .genContinue →
      t.ERR = if s.PHASE ≠ .idle then .busy else if s.SEEDED = false then .notSeeded else .none)

/-- R25, R26: SEEDED is set by a successful seed load and OUT_VALID by a draw, and nothing but reset clears either. -/
def Obligations.SeededAndOutValidLastUntilReset : Prop :=
  ∀ s t : State, step s = .next t →
    (s.SEEDED = true → ¬ hostNow s .reset → t.SEEDED = true) ∧
    (s.SEEDED = false → t.SEEDED = true →
      s.PHASE = .idle ∧ (commandNow s (.loadSeed 32) ∨ commandNow s (.genSeeded 32))) ∧
    (s.OUT_VALID = true → ¬ hostNow s .reset → t.OUT_VALID = true) ∧
    (s.OUT_VALID = false → t.OUT_VALID = true →
      (s.PHASE = .idle ∧ commandNow s .step) ∨ (engineNow s ∧ s.PHASE = .fill)) ∧
    (hostNow s .reset → t.SEEDED = false ∧ t.OUT_VALID = false)

/-- R27: MATRIX_VALID is set by a CHECK whose answer is 64, and cleared by the acceptance of a generation or by reset. -/
def Obligations.MatrixValidIsSetByFullRankOnly : Prop :=
  ∀ s t : State, step s = .next t →
    (s.MATRIX_VALID = false → t.MATRIX_VALID = true →
      engineNow s ∧ s.PHASE = .check ∧ t.LAST_RANK = 64 ∧ t.PHASE = .idle) ∧
    (s.MATRIX_VALID = true → t.MATRIX_VALID = false →
      hostNow s .reset ∨
      (s.PHASE = .idle ∧ (commandNow s (.genSeeded 32) ∨ (commandNow s .genContinue ∧ s.SEEDED = true))))

/-- R22, R126: only the host's writes to SEED0..SEED3, and reset, change the seed; such a write is accepted in every
phase. -/
def Obligations.SeedIsWrittenByTheHostOnly : Prop :=
  ∀ s t : State, step s = .next t →
    (engineNow s → t.SEED = s.SEED) ∧
    (∀ i, commandNow s i → t.SEED = s.SEED) ∧
    (∀ (w : Fin 4) (v : Word), hostNow s (.write (BitVec.ofNat 12 (0x020 + 8 * w.val)) 8 v) →
      t.SEED = s.SEED.set w.val v) ∧
    (hostNow s .reset → ∀ w : Fin 4, t.SEED[w.val] = 0) ∧
    (t.SEED ≠ s.SEED → hostNow s .reset ∨
      ∃ (w : Fin 4) (v : Word), hostNow s (.write (BitVec.ofNat 12 (0x020 + 8 * w.val)) 8 v))

/-- R21, R23, R102: S changes by a seed load, a draw or reset, and no other way; OUT by a draw or reset, and a draw writes
both. -/
def Obligations.PrngStateChangesByLoadDrawOrReset : Prop :=
  ∀ s t : State, step s = .next t → (t.S ≠ s.S ∨ t.OUT ≠ s.OUT) →
    (hostNow s .reset ∧ t.S = none ∧ t.OUT = none) ∨
    ((commandNow s (.loadSeed 32) ∨ commandNow s (.genSeeded 32)) ∧ s.PHASE = .idle ∧
      t.S = some ⟨s.SEED[0], s.SEED[1], s.SEED[2], s.SEED[3]⟩ ∧ t.OUT = s.OUT) ∨
    (((commandNow s .step ∧ s.PHASE = .idle ∧ s.SEEDED = true) ∨ (engineNow s ∧ s.PHASE = .fill)) ∧
      ∃ p, s.S = some p ∧ t.S = some p.next ∧ t.OUT = some p.out)

/-- R24: only FILL, and reset, write the matrix store. -/
def Obligations.MatrixIsWrittenByFillOnly : Prop :=
  ∀ s t : State, step s = .next t → t.MAT ≠ s.MAT →
    (hostNow s .reset ∧ ∀ i j : Fin 64, t.MAT[i.val][j.val] = none) ∨ (engineNow s ∧ s.PHASE = .fill)

/-- R29, R30: LAST_RANK and ATTEMPTS change by CHECK, ATTEMPTS also by the acceptance of a generation, and both by reset.
The rank checker changes by nothing (R35, R180). -/
def Obligations.CountersChangeByCheckStartOrReset : Prop :=
  ∀ s t : State, step s = .next t →
    t.rankTable = s.rankTable ∧
    (t.LAST_RANK ≠ s.LAST_RANK ∨ t.ATTEMPTS ≠ s.ATTEMPTS →
      (hostNow s .reset ∧ t.LAST_RANK = 0 ∧ t.ATTEMPTS = 0) ∨
      ((commandNow s (.genSeeded 32) ∨ (commandNow s .genContinue ∧ s.SEEDED = true)) ∧ s.PHASE = .idle ∧
        t.LAST_RANK = s.LAST_RANK ∧ t.ATTEMPTS = 0) ∨
      (engineNow s ∧ s.PHASE = .check ∧ t.ATTEMPTS.toNat = min (s.ATTEMPTS.toNat + 1) (2 ^ 32 - 1) ∧
        ∃ a, snapshot s.MAT = some a ∧ t.LAST_RANK = rankFn s.rankTable a))

/-- R32, R33, R145: the sequencer's transitions, all of them. -/
def Obligations.PhaseFollowsTheSequencer : Prop :=
  ∀ s t : State, step s = .next t → t.PHASE ≠ s.PHASE →
    (s.PHASE = .idle ∧ t.PHASE = .fill ∧ t.ROW = 0 ∧ t.BLK = 0 ∧
      (commandNow s (.genSeeded 32) ∨ (commandNow s .genContinue ∧ s.SEEDED = true))) ∨
    (s.PHASE = .fill ∧ t.PHASE = .check ∧ engineNow s ∧ s.ROW = 63 ∧ s.BLK = 3 ∧ t.ROW = 0 ∧ t.BLK = 0) ∨
    (s.PHASE = .check ∧ t.PHASE = .fill ∧ engineNow s ∧ t.LAST_RANK.toNat < 64 ∧ t.ROW = s.ROW ∧ t.BLK = s.BLK) ∨
    (s.PHASE = .check ∧ t.PHASE = .idle ∧ engineNow s ∧ t.LAST_RANK = 64 ∧ t.MATRIX_VALID = true) ∨
    (s.PHASE ≠ .idle ∧ t.PHASE = .idle ∧ t.ROW = 0 ∧ t.BLK = 0 ∧ (commandNow s .abort ∨ hostNow s .reset))

/-! ### Generations (spec/42_matrix_generator.md) -/

/-- From R148, R144, R152 and R261: a generation of which A attempts are deficient and the next is of full rank, run by the
engine alone, takes 257 micro-steps an attempt and ends with the last attempt's matrix, S after all the draws, and
everything else as it was. That every CHECK completes rests on notes/assumptions/10.md: the rank checker always answers. -/
def Obligations.GenerationEndsWithTheAcceptedAttempt : Prop :=
  ∀ (s : State) (p : Prng) (A : Nat), s.PHASE = .fill → s.ROW = 0 → s.BLK = 0 → s.S = some p →
    (∀ a < A, (rankFn s.rankTable (attemptMatrix (p.after (256 * a)))).toNat < 64) →
    rankFn s.rankTable (attemptMatrix (p.after (256 * A))) = 64 →
    run (257 * (A + 1)) (s.withEngineTurns (257 * (A + 1))) = .next { s with
      S := some (p.after (256 * (A + 1))), OUT := some (p.draw (256 * (A + 1) - 1)), OUT_VALID := true,
      MAT := (attemptMatrix (p.after (256 * A))).map fun r => r.map some,
      MATRIX_VALID := true, LAST_RANK := 64,
      ATTEMPTS := BitVec.ofNat 32 (min (s.ATTEMPTS.toNat + (A + 1)) (2 ^ 32 - 1)), PHASE := .idle }

/-- R148, with R60 and R62: whatever the host does while a generation runs, but for ABORT and reset, and however its steps
fall among the engine's, the generation is where the engine's steps alone would have brought it. -/
def Obligations.InterleavingLeavesTheGenerationAlone : Prop :=
  ∀ (s u : State) (ts : List Agent), s.PHASE ≠ .idle →
    (∀ op ∈ s.host, op ≠ .reset ∧ ∀ v, op = .write 0x000 8 v → decode v ≠ .command .abort) →
    run (ts.count .engine) { s with turns := List.replicate (ts.count .engine) .engine } = .next u → u.PHASE ≠ .idle →
    (∃ t, run ts.length { s with turns := ts } = .next t ∧ SameGenerator u t) ∧
    (∀ v, run (ts.count .engine + 1) { s with turns := List.replicate (ts.count .engine + 1) .engine } = .next v →
      ∃ t, run (ts.length + 1) { s with turns := ts ++ [.engine] } = .next t ∧ SameGenerator v t)

/-- R149, R238: from the all-zero state, with a rank checker that answers as RefRank does, the engine's steps go on for
ever: no number of them completes the generation or stops the machine. That every CHECK completes rests on
notes/assumptions/10.md. -/
def Obligations.AllZeroGenerationNeverCompletes : Prop :=
  ∀ s : State, s.PHASE = .fill → s.ROW = 0 → s.BLK = 0 → s.S = some ⟨0, 0, 0, 0⟩ → s.rankTable.Exact →
    ∀ n : Nat, ∃ t, run n (s.withEngineTurns n) = .next t ∧ t.PHASE ≠ .idle ∧ t.S = some ⟨0, 0, 0, 0⟩ ∧
      t.MATRIX_VALID = s.MATRIX_VALID ∧ t.ATTEMPTS.toNat = min (s.ATTEMPTS.toNat + n / 257) (2 ^ 32 - 1)

/-! ### The datapath (spec/40_prng_engine.md) -/

/-- R100: the inverse rotation law. -/
def Obligations.RotationHasItsInverse : Prop :=
  ∀ (x : Word) (k : Nat), 1 ≤ k → k ≤ 63 →
    rotl64 x k = BitVec.ofNat 64 (x.toNat * 2 ^ k % 2 ^ 64 ||| x.toNat / 2 ^ (64 - k)) ∧
    rotl64 (rotl64 x k) (64 - k) = x

/-- R105: the all-zero state is a fixed point, and every draw from it on is 0. -/
def Obligations.ZeroStateStaysZero : Prop :=
  xoshiro ⟨0, 0, 0, 0⟩ = (0, ⟨0, 0, 0, 0⟩) ∧
  ∀ n : Nat, (Prng.mk 0 0 0 0).after n = ⟨0, 0, 0, 0⟩ ∧ (Prng.mk 0 0 0 0).draw n = 0

/-- From R101, not assumed (R107): the state transition is one to one and reaches every state. -/
def Obligations.StateTransitionIsABijection : Prop := Function.Bijective Prng.next

/-! ### The window (spec/20_memory.md) -/

/-- R52: the register map: each register's offset, and no other register there. -/
def Obligations.RegisterMapIsOneToOne : Prop :=
  (∀ r : Reg, r.offset.toNat = match r with
    | .cmd => 0x000 | .status => 0x008 | .out => 0x010 | .attempts => 0x018
    | .seed w => 0x020 + 8 * w.val | .s w => 0x040 + 8 * w.val | .matw w => 0x100 + 8 * w.val) ∧
  (∀ (off : Offset) (r : Reg), off.toNat % 8 = 0 → (regAt off = some r ↔ off = r.offset)) ∧
  (∀ off : Offset, off.toNat % 8 = 0 → (regAt off = none ↔
    (0x060 ≤ off.toNat ∧ off.toNat ≤ 0x0F8) ∨ (0x900 ≤ off.toNat ∧ off.toNat ≤ 0xFF8)))

/-- R58: MemRead, case by case, and that the host's read leaves its outcome with the host and changes nothing. -/
def Obligations.MemReadFollowsTheMap : Prop :=
  ∀ s : State,
    (∀ off size, size ≠ 8 ∨ off.toNat % 8 ≠ 0 → memRead s off size = .ok .busErr) ∧
    memRead s 0x008 8 = .ok (.data s.status) ∧
    memRead s 0x018 8 = .ok (.data (s.ATTEMPTS.setWidth 64)) ∧
    (∀ w : Fin 4, memRead s (BitVec.ofNat 12 (0x020 + 8 * w.val)) 8 = .ok (.data s.SEED[w.val])) ∧
    (∀ v, s.PHASE = .idle → s.OUT_VALID = true → s.OUT = some v → memRead s 0x010 8 = .ok (.data v)) ∧
    (s.PHASE ≠ .idle ∨ s.OUT_VALID = false → memRead s 0x010 8 = .ok .busErr) ∧
    (∀ s0 s1 s2 s3, s.PHASE = .idle → s.SEEDED = true → s.S = some ⟨s0, s1, s2, s3⟩ →
      memRead s 0x040 8 = .ok (.data s0) ∧ memRead s 0x048 8 = .ok (.data s1) ∧
      memRead s 0x050 8 = .ok (.data s2) ∧ memRead s 0x058 8 = .ok (.data s3)) ∧
    (∀ w : Fin 4, s.PHASE ≠ .idle ∨ s.SEEDED = false →
      memRead s (BitVec.ofNat 12 (0x040 + 8 * w.val)) 8 = .ok .busErr) ∧
    (∀ (w : Fin 256) v, s.PHASE = .idle → s.MATRIX_VALID = true → matrixWord s.MAT w = some v →
      memRead s (BitVec.ofNat 12 (0x100 + 8 * w.val)) 8 = .ok (.data v)) ∧
    (∀ w : Fin 256, s.PHASE ≠ .idle ∨ s.MATRIX_VALID = false →
      memRead s (BitVec.ofNat 12 (0x100 + 8 * w.val)) 8 = .ok .busErr) ∧
    (∀ off : Offset, off.toNat = 0x000 ∨ (0x060 ≤ off.toNat ∧ off.toNat ≤ 0x0F8) ∨ 0x900 ≤ off.toNat →
      memRead s off 8 = .ok .busErr) ∧
    (∀ off size r, memRead s off size = .ok r →
      hostOp s (.read off size) = .next { s with host := s.host.tail, log := r :: s.log })

/-- R59: MemWrite, case by case, with what the host sees of it; and the engine's step does not depend on SEED. -/
def Obligations.MemWriteFollowsTheMap : Prop :=
  ∀ (s : State) (v : Word),
    (∀ off size, size ≠ 8 ∨ off.toNat % 8 ≠ 0 → memWrite s off size v = .next { s with log := .busErr :: s.log }) ∧
    memWrite s 0x000 8 v = execute v { s with log := .done :: s.log } ∧
    (∀ w : Fin 4, memWrite s (BitVec.ofNat 12 (0x020 + 8 * w.val)) 8 v =
      .next { s with SEED := s.SEED.set w.val v, log := .done :: s.log }) ∧
    (∀ off : Offset, off.toNat ≠ 0x000 → off.toNat < 0x020 ∨ 0x040 ≤ off.toNat →
      memWrite s off 8 v = .next { s with log := .busErr :: s.log }) ∧
    (∀ (sd : Vector Word 4) (t : State), engineStep s = .next t →
      engineStep { s with SEED := sd } = .next { t with SEED := sd })

/-- R221: the causes of BUSERR, for a read and for a write: these and no others, and nothing is recorded in XMG. -/
def Obligations.BusErrorHasItsCausesOnly : Prop :=
  ∀ (s : State) (off : Offset) (size : Nat),
    let reserved := (0x060 ≤ off.toNat ∧ off.toNat ≤ 0x0F8) ∨ (0x900 ≤ off.toNat ∧ off.toNat ≤ 0xFF8)
    (memRead s off size = .ok .busErr ↔
      size ≠ 8 ∨ off.toNat % 8 ≠ 0 ∨ reserved ∨ off.toNat = 0x000 ∨
      (off.toNat = 0x010 ∧ (s.PHASE ≠ .idle ∨ s.OUT_VALID = false)) ∨
      (0x040 ≤ off.toNat ∧ off.toNat ≤ 0x058 ∧ (s.PHASE ≠ .idle ∨ s.SEEDED = false)) ∨
      (0x100 ≤ off.toNat ∧ off.toNat ≤ 0x8F8 ∧ (s.PHASE ≠ .idle ∨ s.MATRIX_VALID = false))) ∧
    (∀ v, (∃ t, memWrite s off size v = .next t ∧ t.log = .busErr :: s.log) ↔
      size ≠ 8 ∨ off.toNat % 8 ≠ 0 ∨ reserved ∨ off.toNat ∈ [0x008, 0x010, 0x018] ∨
      (0x040 ≤ off.toNat ∧ off.toNat ≤ 0x058) ∨ (0x100 ≤ off.toNat ∧ off.toNat ≤ 0x8F8)) ∧
    (∀ v t, memWrite s off size v = .next t → t.log = .busErr :: s.log → t = { s with log := .busErr :: s.log })

/-- R220, R58, R61: a read, whatever its outcome, and a write that ends in BUSERR change nothing of XMG. -/
def Obligations.ReadsAndBusErrorsChangeNothing : Prop :=
  ∀ s t : State, step s = .next t →
    (∀ off size, hostNow s (.read off size) → SameXmg s t) ∧
    (∀ off mask v, hostNow s (.poll off mask v) → SameXmg s t) ∧
    (∀ off size v, hostNow s (.write off size v) → t.log.head? = some .busErr → SameXmg s t)

/-- From R62 and R87: the host's operations take effect in the order it issues them; one is behind it after its step, but
for a POLL, which is repeated until `(result & mask) = v`. That a POLL goes on after a read that ends in BUSERR is the
model's choice (notes/assumptions/5.md), for the spec is silent there. -/
def Obligations.HostOperationsRunInOrder : Prop :=
  ∀ (s t : State) (op : HostOp) (rest : List HostOp), step s = .next t → nextAgent s = .host → s.host = op :: rest →
    (∀ off mask v, op = .poll off mask v →
      ∃ r, memRead s off 8 = .ok r ∧ t.log = r :: s.log ∧
        ((∃ x, r = .data x ∧ x &&& mask = v ∧ t.host = rest) ∨
         ((∀ x, r = .data x → x &&& mask ≠ v) ∧ t.host = s.host))) ∧
    ((∀ off mask v, op ≠ .poll off mask v) → t.host = rest) ∧
    (∀ off size, op = .read off size → ∃ r, memRead s off size = .ok r ∧ t.log = r :: s.log)

/-- R53: a matrix word shows its 16 entries, the lowest column in the highest nibble, and so the draw that filled them. -/
def Obligations.MatrixWordIsItsDraw : Prop :=
  (∀ (m : MatrixStore) (i : Fin 64) (b : Fin 4) (w : Fin 256) (v : Word), w.val = 4 * i.val + b.val →
    (matrixWord m w = some v ↔
      ∀ k : Fin 16, m[i.val][16 * b.val + k.val] = some (v.extractLsb' (60 - 4 * k.val) 4))) ∧
  (∀ (m : MatrixStore) (i : Fin 64) (b : Fin 4) (w : Fin 256) (v : Word), w.val = 4 * i.val + b.val →
    matrixWord (unpack m i b v) w = some v ∧ ∀ w', w' ≠ w → matrixWord (unpack m i b v) w' = matrixWord m w')

/-- R31, with BUSY of R32 and the codes of R223: STATUS, field by field, the reserved bits 0, read at 0x008 in every phase
and never written. -/
def Obligations.StatusShowsItsFields : Prop :=
  ∀ s : State,
    memRead s 0x008 8 = .ok (.data s.status) ∧
    (∀ v, memWrite s 0x008 8 v = .next { s with log := .busErr :: s.log }) ∧
    s.status.extractLsb' 0 1 = (if s.PHASE = .idle then 0 else 1) ∧
    s.status.extractLsb' 1 1 = (if s.SEEDED then 1 else 0) ∧
    s.status.extractLsb' 2 1 = (if s.OUT_VALID then 1 else 0) ∧
    s.status.extractLsb' 3 1 = (if s.MATRIX_VALID then 1 else 0) ∧
    s.status.extractLsb' 4 4 = 0 ∧
    s.status.extractLsb' 8 4 = (match s.ERR with
      | .none => 0 | .invalidSeedLength => 1 | .notSeeded => 2 | .busy => 3 | .badCommand => 4 | .aborted => 5) ∧
    s.status.extractLsb' 12 4 = 0 ∧
    s.status.extractLsb' 16 7 = s.LAST_RANK ∧
    s.status.extractLsb' 23 41 = 0

/-- R56, R120: the window as bytes is little-endian, so that seed byte k is the byte at offset 0x020 + k. -/
def Obligations.WindowBytesAreLittleEndian : Prop :=
  (∀ (s : State) (off : Offset) (k : Nat) (v : Word), off.toNat % 8 = 0 → k < 8 → memRead s off 8 = .ok (.data v) →
    windowByte s (BitVec.ofNat 12 (off.toNat + k)) = some (v.extractLsb' (8 * k) 8)) ∧
  (∀ (s : State) (w : Fin 4) (k : Fin 8),
    windowByte s (BitVec.ofNat 12 (0x020 + (8 * w.val + k.val))) = some (s.SEED[w.val].extractLsb' (8 * k.val) 8))

/-- R88, R120, R121: the host program SEEDB b0 … b31; CMD LOAD_SEED stages the 32 bytes and loads them as four
little-endian words; no draw takes place. -/
def Obligations.SeedBytesLoadLittleEndian : Prop :=
  ∀ (s : State) (b : Vector Byte 32) (rest : List HostOp) (ts : List Agent), s.PHASE = .idle →
    s.host = (Stmt.seedb b).expand ++ Stmt.loadSeed.expand ++ rest → s.turns = List.replicate 5 .host ++ ts →
    ∃ t p, run 5 s = .next t ∧ t.S = some p ∧ t.SEEDED = true ∧ t.ERR = .none ∧
      (∀ w : Fin 4, (p.word w).toNat = ∑ k : Fin 8, b[8 * w.val + k.val].toNat * 2 ^ (8 * k.val)) ∧
      (∀ k : Fin 32, seedByte t.SEED k = b[k.val]) ∧
      t.OUT = s.OUT ∧ t.OUT_VALID = s.OUT_VALID ∧ t.MAT = s.MAT ∧ t.MATRIX_VALID = s.MATRIX_VALID ∧
      t.PHASE = .idle ∧ t.host = rest ∧ t.turns = ts

/-! ### Reset (spec/70_reset_and_hazards.md) -/

/-- R251: XMG right after reset: every value the rule gives, and what the host then reads. -/
def Obligations.ResetStateHasTheStatedValues : Prop :=
  let s := State.reset
  s.PHASE = .idle ∧ s.ROW = 0 ∧ s.BLK = 0 ∧ s.SEEDED = false ∧ s.OUT_VALID = false ∧ s.MATRIX_VALID = false ∧
  s.ERR = .none ∧ s.LAST_RANK = 0 ∧ s.ATTEMPTS = 0 ∧ (∀ w : Fin 4, s.SEED[w.val] = 0) ∧
  s.S = none ∧ s.OUT = none ∧ (∀ i j : Fin 64, s.MAT[i.val][j.val] = none) ∧
  memRead s 0x008 8 = .ok (.data 0x0000000000000000) ∧ memRead s 0x018 8 = .ok (.data 0) ∧
  memRead s 0x010 8 = .ok .busErr ∧
  (∀ w : Fin 4, memRead s (BitVec.ofNat 12 (0x020 + 8 * w.val)) 8 = .ok (.data 0) ∧
    memRead s (BitVec.ofNat 12 (0x040 + 8 * w.val)) 8 = .ok .busErr) ∧
  (∀ w : Fin 256, memRead s (BitVec.ofNat 12 (0x100 + 8 * w.val)) 8 = .ok .busErr)

/-- From R250 and R252: the host's RESET, in any state, is one step after which XMG is as `State.reset` has it. That the
host's further operations and the order of steps (notes/assumptions/2.md), the rank checker (3.md) and what the host has
seen (4.md) stay is the model's choice: they are its own fields and no part of XMG. -/
def Obligations.ResetRestoresXmgFromAnyState : Prop :=
  ∀ s : State, hostNow s .reset → ∃ t, step s = .next t ∧ SameXmg { State.reset with rankTable := s.rankTable } t ∧
    t.host = s.host.tail ∧ t.turns = s.turns.tail ∧ t.log = s.log

/-! ### The invariant (spec/10_state.md R34, R36) -/

/-- R34: it holds right after reset, whatever the host will do, in whatever order, with whatever rank checker. -/
def Obligations.InvariantHoldsAfterReset : Prop := ∀ s : State, Initial s → Inv s

/-- R34: every step keeps it, from every state that has it. -/
def Obligations.EveryStepKeepsTheInvariant : Prop := ∀ s t : State, Inv s → step s = .next t → Inv t

/-- From R36 and R237: no run from reset reads an unwritten value. From R187, and with a rank checker that always answers
(notes/assumptions/10.md): where the checker keeps to 0..64, no run from reset stops at all. -/
def Obligations.RunsFromResetNeverStop : Prop :=
  ∀ s₀ s : State, Initial s₀ → Reaches s₀ s →
    step s ≠ .fault .unwrittenRead ∧ (s₀.rankTable.Legal → ∃ t, step s = .next t)

/-- R68, R151, with R53: in every run from reset, whenever MATRIX_VALID shows in the idle engine, the 256 matrix words read
back as consecutive draws of one stream, and the matrix they make is one that the rank port answered with 64. -/
def Obligations.ExposedMatrixIsAnAcceptedAttempt : Prop :=
  ∀ s₀ s : State, Initial s₀ → Reaches s₀ s → s.MATRIX_VALID = true → s.PHASE = .idle ∧
    ∃ p : Prng, rankFn s₀.rankTable (attemptMatrix p) = 64 ∧
      ∀ w : Fin 256, memRead s (BitVec.ofNat 12 (0x100 + 8 * w.val)) 8 = .ok (.data (p.draw w.val))

/-- R260: after the steps that are ordered, and so after finitely many, the next step of a busy XMG is the engine's. That
the engine goes first when no order is given is the model's choice (notes/assumptions/2.md). -/
def Obligations.BusyEngineGetsItsTurn : Prop :=
  ∀ s : State, ∃ n, n ≤ s.turns.length ∧ (∀ k < n, s.turns[k]? = some .host) ∧
    ∀ u, run n s = .next u → u.PHASE ≠ .idle → engineNow u

/-! ### The reference rank function (spec/43_rank_checker.md) -/

/-- R188: RefRank's loop ends after at most 2n iterations, so 128 at n = 64, and answers at most n. -/
def Obligations.RefRankLoopEnds : Prop :=
  ∀ (n : Nat) (m : CheckMatrix n),
    (RankLoop.run (2 * n) (RankLoop.start m)).iterate = none ∧ rankOf m ≤ n

/-- R180, R183: RefRank is the rank over the rationals, for every square matrix. The spec gives this as evidence, not as a
rule's own proof (R189). -/
def Obligations.RefRankIsTheRationalRank : Prop :=
  ∀ (n : Nat) (m : CheckMatrix n),
    rankOf m = (Matrix.of fun i j : Fin n => m[i.val][j.val]).rank

/-! ### Step lemmas behind the statements about runs -/

/-- From R34 and R36: from every state that has the invariant, reached or not, the next step does not stop with
UNWRITTEN_READ; and where every answer of the rank checker is in 0..64 (R187), there is a next state, it has the invariant,
and the checker is the same. That CHECK completes rests on notes/assumptions/10.md. -/
def Obligations.InvariantStatesGoOn : Prop :=
  ∀ s : State, Inv s → step s ≠ .fault .unwrittenRead ∧
    (s.rankTable.Legal → ∃ t, step s = .next t ∧ Inv t ∧ t.rankTable = s.rankTable)

/-- From R68, R151 and R53: in every state that has the invariant, MATRIX_VALID = 1 says that XMG is idle, and that the 256
matrix words read back as consecutive draws of one stream whose matrix the rank port answers with 64. -/
def Obligations.InvariantStatesExposeAnAcceptedAttempt : Prop :=
  ∀ s : State, Inv s → s.MATRIX_VALID = true → s.PHASE = .idle ∧
    ∃ p : Prng, rankFn s.rankTable (attemptMatrix p) = 64 ∧
      ∀ w : Fin 256, memRead s (BitVec.ofNat 12 (0x100 + 8 * w.val)) 8 = .ok (.data (p.draw w.val))

/-- From R148, R60 and R85: of two states that share a running generation, t keeps it over every step of the host but ABORT
and reset, and such a step gives a next state; and where the engine moves from u, its step from t gives the same. -/
def Obligations.EveryStepKeepsTheSharedGeneration : Prop :=
  ∀ u t : State, SameGenerator u t → u.PHASE ≠ .idle →
    (nextAgent t = .host → ¬ hostNow t .reset → ¬ commandNow t .abort → ∃ t', step t = .next t' ∧ SameGenerator u t') ∧
    (engineNow t → ∀ u', engineStep u = .next u' → ∃ t', step t = .next t' ∧ SameGenerator u' t')

/-- From R149 and R105: every step but ABORT and reset gives a next state that is still in a generation from the all-zero
state, with MATRIX_VALID as it was. That CHECK completes rests on notes/assumptions/10.md. -/
def Obligations.EveryStepKeepsTheZeroGeneration : Prop :=
  ∀ s : State, ZeroGeneration s → ¬ hostNow s .reset → ¬ commandNow s .abort →
    ∃ t, step s = .next t ∧ ZeroGeneration t ∧ t.MATRIX_VALID = s.MATRIX_VALID
end

