-- ==== Sys2Proof/Laws/PerInstr.lean ====
section
/-! SUPPORT. Facts about each command as syntax, one lemma per constructor. -/

namespace Sys2Proof.Laws.ReservedFieldsZero

/-- R81: the word of a command has both reserved fields 0 and the command's OPCODE. -/
def Statement (i : Instr) : Prop := rsv0Field (encode i) = 0 ∧ rsv1Field (encode i) = 0 ∧ opcodeField (encode i) = i.opcode

/-- R81: so has every word put together from an OPCODE and a LEN. -/
theorem commandWord_fields (op : BitVec 4) (len : BitVec 16) :
    rsv0Field (commandWord op len) = 0 ∧ rsv1Field (commandWord op len) = 0 ∧ opcodeField (commandWord op len) = op := by
  refine ⟨?_, ?_, ?_⟩ <;> (apply BitVec.eq_of_getLsbD_eq; intro i hi)
  · simp [rsv0Field, commandWord]; omega
  · have h := BitVec.getLsbD_of_ge op (24 + i) (by omega)
    have h' := BitVec.getLsbD_of_ge len (24 + i - 8) (by omega)
    simp [rsv1Field, commandWord, h, h']
  · have h : i < 8 := by omega
    have h' : i < 64 := by omega
    simp [opcodeField, commandWord, h, h', hi]

theorem nop : Statement .nop := commandWord_fields _ _
theorem loadSeed (len : Nat) : Statement (.loadSeed len) := commandWord_fields _ _
theorem step : Statement .step := commandWord_fields _ _
theorem genSeeded (len : Nat) : Statement (.genSeeded len) := commandWord_fields _ _
theorem genContinue : Statement .genContinue := commandWord_fields _ _
theorem abort : Statement .abort := commandWord_fields _ _

end Sys2Proof.Laws.ReservedFieldsZero
end

