-- ==== Sys2Proof/Laws/State.lean ====
section
/-! SUPPORT. Each named update of the state, field by field. -/

namespace Sys2Proof.Machine

/-! ### setErr -/

@[simp] theorem State.setErr_S (s : State) (e : ErrCode) : (s.setErr e).S = s.S := rfl
@[simp] theorem State.setErr_SEED (s : State) (e : ErrCode) : (s.setErr e).SEED = s.SEED := rfl
@[simp] theorem State.setErr_OUT (s : State) (e : ErrCode) : (s.setErr e).OUT = s.OUT := rfl
@[simp] theorem State.setErr_MAT (s : State) (e : ErrCode) : (s.setErr e).MAT = s.MAT := rfl
@[simp] theorem State.setErr_SEEDED (s : State) (e : ErrCode) : (s.setErr e).SEEDED = s.SEEDED := rfl
@[simp] theorem State.setErr_OUT_VALID (s : State) (e : ErrCode) : (s.setErr e).OUT_VALID = s.OUT_VALID := rfl
@[simp] theorem State.setErr_MATRIX_VALID (s : State) (e : ErrCode) : (s.setErr e).MATRIX_VALID = s.MATRIX_VALID := rfl
@[simp] theorem State.setErr_ERR (s : State) (e : ErrCode) : (s.setErr e).ERR = e := rfl
@[simp] theorem State.setErr_LAST_RANK (s : State) (e : ErrCode) : (s.setErr e).LAST_RANK = s.LAST_RANK := rfl
@[simp] theorem State.setErr_ATTEMPTS (s : State) (e : ErrCode) : (s.setErr e).ATTEMPTS = s.ATTEMPTS := rfl
@[simp] theorem State.setErr_PHASE (s : State) (e : ErrCode) : (s.setErr e).PHASE = s.PHASE := rfl
@[simp] theorem State.setErr_ROW (s : State) (e : ErrCode) : (s.setErr e).ROW = s.ROW := rfl
@[simp] theorem State.setErr_BLK (s : State) (e : ErrCode) : (s.setErr e).BLK = s.BLK := rfl
@[simp] theorem State.setErr_host (s : State) (e : ErrCode) : (s.setErr e).host = s.host := rfl
@[simp] theorem State.setErr_turns (s : State) (e : ErrCode) : (s.setErr e).turns = s.turns := rfl
@[simp] theorem State.setErr_log (s : State) (e : ErrCode) : (s.setErr e).log = s.log := rfl
@[simp] theorem State.setErr_rankTable (s : State) (e : ErrCode) : (s.setErr e).rankTable = s.rankTable := rfl

/-! ### fail -/

@[simp] theorem State.fail_S (s : State) (e : ErrCode) : (s.fail e).S = s.S := rfl
@[simp] theorem State.fail_SEED (s : State) (e : ErrCode) : (s.fail e).SEED = s.SEED := rfl
@[simp] theorem State.fail_OUT (s : State) (e : ErrCode) : (s.fail e).OUT = s.OUT := rfl
@[simp] theorem State.fail_MAT (s : State) (e : ErrCode) : (s.fail e).MAT = s.MAT := rfl
@[simp] theorem State.fail_SEEDED (s : State) (e : ErrCode) : (s.fail e).SEEDED = s.SEEDED := rfl
@[simp] theorem State.fail_OUT_VALID (s : State) (e : ErrCode) : (s.fail e).OUT_VALID = s.OUT_VALID := rfl
@[simp] theorem State.fail_MATRIX_VALID (s : State) (e : ErrCode) : (s.fail e).MATRIX_VALID = s.MATRIX_VALID := rfl
@[simp] theorem State.fail_ERR (s : State) (e : ErrCode) : (s.fail e).ERR = e := rfl
@[simp] theorem State.fail_LAST_RANK (s : State) (e : ErrCode) : (s.fail e).LAST_RANK = s.LAST_RANK := rfl
@[simp] theorem State.fail_ATTEMPTS (s : State) (e : ErrCode) : (s.fail e).ATTEMPTS = s.ATTEMPTS := rfl
@[simp] theorem State.fail_PHASE (s : State) (e : ErrCode) : (s.fail e).PHASE = s.PHASE := rfl
@[simp] theorem State.fail_ROW (s : State) (e : ErrCode) : (s.fail e).ROW = s.ROW := rfl
@[simp] theorem State.fail_BLK (s : State) (e : ErrCode) : (s.fail e).BLK = s.BLK := rfl
@[simp] theorem State.fail_host (s : State) (e : ErrCode) : (s.fail e).host = s.host := rfl
@[simp] theorem State.fail_turns (s : State) (e : ErrCode) : (s.fail e).turns = s.turns := rfl
@[simp] theorem State.fail_log (s : State) (e : ErrCode) : (s.fail e).log = s.log := rfl
@[simp] theorem State.fail_rankTable (s : State) (e : ErrCode) : (s.fail e).rankTable = s.rankTable := rfl

/-! ### drawn -/

@[simp] theorem State.drawn_S (s : State) (p : Prng) : (s.drawn p).S = some p.next := rfl
@[simp] theorem State.drawn_SEED (s : State) (p : Prng) : (s.drawn p).SEED = s.SEED := rfl
@[simp] theorem State.drawn_OUT (s : State) (p : Prng) : (s.drawn p).OUT = some p.out := rfl
@[simp] theorem State.drawn_MAT (s : State) (p : Prng) : (s.drawn p).MAT = s.MAT := rfl
@[simp] theorem State.drawn_SEEDED (s : State) (p : Prng) : (s.drawn p).SEEDED = s.SEEDED := rfl
@[simp] theorem State.drawn_OUT_VALID (s : State) (p : Prng) : (s.drawn p).OUT_VALID = true := rfl
@[simp] theorem State.drawn_MATRIX_VALID (s : State) (p : Prng) : (s.drawn p).MATRIX_VALID = s.MATRIX_VALID := rfl
@[simp] theorem State.drawn_ERR (s : State) (p : Prng) : (s.drawn p).ERR = s.ERR := rfl
@[simp] theorem State.drawn_LAST_RANK (s : State) (p : Prng) : (s.drawn p).LAST_RANK = s.LAST_RANK := rfl
@[simp] theorem State.drawn_ATTEMPTS (s : State) (p : Prng) : (s.drawn p).ATTEMPTS = s.ATTEMPTS := rfl
@[simp] theorem State.drawn_PHASE (s : State) (p : Prng) : (s.drawn p).PHASE = s.PHASE := rfl
@[simp] theorem State.drawn_ROW (s : State) (p : Prng) : (s.drawn p).ROW = s.ROW := rfl
@[simp] theorem State.drawn_BLK (s : State) (p : Prng) : (s.drawn p).BLK = s.BLK := rfl
@[simp] theorem State.drawn_host (s : State) (p : Prng) : (s.drawn p).host = s.host := rfl
@[simp] theorem State.drawn_turns (s : State) (p : Prng) : (s.drawn p).turns = s.turns := rfl
@[simp] theorem State.drawn_log (s : State) (p : Prng) : (s.drawn p).log = s.log := rfl
@[simp] theorem State.drawn_rankTable (s : State) (p : Prng) : (s.drawn p).rankTable = s.rankTable := rfl

/-! ### seedLoad -/

@[simp] theorem State.seedLoad_S (s : State) : (s.seedLoad).S = some (prngOfSeed s.SEED) := rfl
@[simp] theorem State.seedLoad_SEED (s : State) : (s.seedLoad).SEED = s.SEED := rfl
@[simp] theorem State.seedLoad_OUT (s : State) : (s.seedLoad).OUT = s.OUT := rfl
@[simp] theorem State.seedLoad_MAT (s : State) : (s.seedLoad).MAT = s.MAT := rfl
@[simp] theorem State.seedLoad_SEEDED (s : State) : (s.seedLoad).SEEDED = true := rfl
@[simp] theorem State.seedLoad_OUT_VALID (s : State) : (s.seedLoad).OUT_VALID = s.OUT_VALID := rfl
@[simp] theorem State.seedLoad_MATRIX_VALID (s : State) : (s.seedLoad).MATRIX_VALID = s.MATRIX_VALID := rfl
@[simp] theorem State.seedLoad_ERR (s : State) : (s.seedLoad).ERR = s.ERR := rfl
@[simp] theorem State.seedLoad_LAST_RANK (s : State) : (s.seedLoad).LAST_RANK = s.LAST_RANK := rfl
@[simp] theorem State.seedLoad_ATTEMPTS (s : State) : (s.seedLoad).ATTEMPTS = s.ATTEMPTS := rfl
@[simp] theorem State.seedLoad_PHASE (s : State) : (s.seedLoad).PHASE = s.PHASE := rfl
@[simp] theorem State.seedLoad_ROW (s : State) : (s.seedLoad).ROW = s.ROW := rfl
@[simp] theorem State.seedLoad_BLK (s : State) : (s.seedLoad).BLK = s.BLK := rfl
@[simp] theorem State.seedLoad_host (s : State) : (s.seedLoad).host = s.host := rfl
@[simp] theorem State.seedLoad_turns (s : State) : (s.seedLoad).turns = s.turns := rfl
@[simp] theorem State.seedLoad_log (s : State) : (s.seedLoad).log = s.log := rfl
@[simp] theorem State.seedLoad_rankTable (s : State) : (s.seedLoad).rankTable = s.rankTable := rfl

/-! ### startGeneration -/

@[simp] theorem State.startGeneration_S (s : State) : (s.startGeneration).S = s.S := rfl
@[simp] theorem State.startGeneration_SEED (s : State) : (s.startGeneration).SEED = s.SEED := rfl
@[simp] theorem State.startGeneration_OUT (s : State) : (s.startGeneration).OUT = s.OUT := rfl
@[simp] theorem State.startGeneration_MAT (s : State) : (s.startGeneration).MAT = s.MAT := rfl
@[simp] theorem State.startGeneration_SEEDED (s : State) : (s.startGeneration).SEEDED = s.SEEDED := rfl
@[simp] theorem State.startGeneration_OUT_VALID (s : State) : (s.startGeneration).OUT_VALID = s.OUT_VALID := rfl
@[simp] theorem State.startGeneration_MATRIX_VALID (s : State) : (s.startGeneration).MATRIX_VALID = false := rfl
@[simp] theorem State.startGeneration_ERR (s : State) : (s.startGeneration).ERR = s.ERR := rfl
@[simp] theorem State.startGeneration_LAST_RANK (s : State) : (s.startGeneration).LAST_RANK = s.LAST_RANK := rfl
@[simp] theorem State.startGeneration_ATTEMPTS (s : State) : (s.startGeneration).ATTEMPTS = 0 := rfl
@[simp] theorem State.startGeneration_PHASE (s : State) : (s.startGeneration).PHASE = .fill := rfl
@[simp] theorem State.startGeneration_ROW (s : State) : (s.startGeneration).ROW = 0 := rfl
@[simp] theorem State.startGeneration_BLK (s : State) : (s.startGeneration).BLK = 0 := rfl
@[simp] theorem State.startGeneration_host (s : State) : (s.startGeneration).host = s.host := rfl
@[simp] theorem State.startGeneration_turns (s : State) : (s.startGeneration).turns = s.turns := rfl
@[simp] theorem State.startGeneration_log (s : State) : (s.startGeneration).log = s.log := rfl
@[simp] theorem State.startGeneration_rankTable (s : State) : (s.startGeneration).rankTable = s.rankTable := rfl

/-! ### stopGeneration -/

@[simp] theorem State.stopGeneration_S (s : State) : (s.stopGeneration).S = s.S := rfl
@[simp] theorem State.stopGeneration_SEED (s : State) : (s.stopGeneration).SEED = s.SEED := rfl
@[simp] theorem State.stopGeneration_OUT (s : State) : (s.stopGeneration).OUT = s.OUT := rfl
@[simp] theorem State.stopGeneration_MAT (s : State) : (s.stopGeneration).MAT = s.MAT := rfl
@[simp] theorem State.stopGeneration_SEEDED (s : State) : (s.stopGeneration).SEEDED = s.SEEDED := rfl
@[simp] theorem State.stopGeneration_OUT_VALID (s : State) : (s.stopGeneration).OUT_VALID = s.OUT_VALID := rfl
@[simp] theorem State.stopGeneration_MATRIX_VALID (s : State) : (s.stopGeneration).MATRIX_VALID = s.MATRIX_VALID := rfl
@[simp] theorem State.stopGeneration_ERR (s : State) : (s.stopGeneration).ERR = s.ERR := rfl
@[simp] theorem State.stopGeneration_LAST_RANK (s : State) : (s.stopGeneration).LAST_RANK = s.LAST_RANK := rfl
@[simp] theorem State.stopGeneration_ATTEMPTS (s : State) : (s.stopGeneration).ATTEMPTS = s.ATTEMPTS := rfl
@[simp] theorem State.stopGeneration_PHASE (s : State) : (s.stopGeneration).PHASE = .idle := rfl
@[simp] theorem State.stopGeneration_ROW (s : State) : (s.stopGeneration).ROW = 0 := rfl
@[simp] theorem State.stopGeneration_BLK (s : State) : (s.stopGeneration).BLK = 0 := rfl
@[simp] theorem State.stopGeneration_host (s : State) : (s.stopGeneration).host = s.host := rfl
@[simp] theorem State.stopGeneration_turns (s : State) : (s.stopGeneration).turns = s.turns := rfl
@[simp] theorem State.stopGeneration_log (s : State) : (s.stopGeneration).log = s.log := rfl
@[simp] theorem State.stopGeneration_rankTable (s : State) : (s.stopGeneration).rankTable = s.rankTable := rfl

/-! ### resetDevice -/

@[simp] theorem State.resetDevice_S (s : State) : (s.resetDevice).S = none := rfl
@[simp] theorem State.resetDevice_SEED (s : State) : (s.resetDevice).SEED = Vector.replicate 4 0 := rfl
@[simp] theorem State.resetDevice_OUT (s : State) : (s.resetDevice).OUT = none := rfl
@[simp] theorem State.resetDevice_MAT (s : State) : (s.resetDevice).MAT = MatrixStore.unwritten := rfl
@[simp] theorem State.resetDevice_SEEDED (s : State) : (s.resetDevice).SEEDED = false := rfl
@[simp] theorem State.resetDevice_OUT_VALID (s : State) : (s.resetDevice).OUT_VALID = false := rfl
@[simp] theorem State.resetDevice_MATRIX_VALID (s : State) : (s.resetDevice).MATRIX_VALID = false := rfl
@[simp] theorem State.resetDevice_ERR (s : State) : (s.resetDevice).ERR = .none := rfl
@[simp] theorem State.resetDevice_LAST_RANK (s : State) : (s.resetDevice).LAST_RANK = 0 := rfl
@[simp] theorem State.resetDevice_ATTEMPTS (s : State) : (s.resetDevice).ATTEMPTS = 0 := rfl
@[simp] theorem State.resetDevice_PHASE (s : State) : (s.resetDevice).PHASE = .idle := rfl
@[simp] theorem State.resetDevice_ROW (s : State) : (s.resetDevice).ROW = 0 := rfl
@[simp] theorem State.resetDevice_BLK (s : State) : (s.resetDevice).BLK = 0 := rfl
@[simp] theorem State.resetDevice_host (s : State) : (s.resetDevice).host = s.host := rfl
@[simp] theorem State.resetDevice_turns (s : State) : (s.resetDevice).turns = s.turns := rfl
@[simp] theorem State.resetDevice_log (s : State) : (s.resetDevice).log = s.log := rfl
@[simp] theorem State.resetDevice_rankTable (s : State) : (s.resetDevice).rankTable = s.rankTable := rfl

/-! ### setSeed -/

@[simp] theorem State.setSeed_S (s : State) (w : Fin 4) (v : Word) : (s.setSeed w v).S = s.S := rfl
@[simp] theorem State.setSeed_SEED (s : State) (w : Fin 4) (v : Word) : (s.setSeed w v).SEED = s.SEED.set w.val v := rfl
@[simp] theorem State.setSeed_OUT (s : State) (w : Fin 4) (v : Word) : (s.setSeed w v).OUT = s.OUT := rfl
@[simp] theorem State.setSeed_MAT (s : State) (w : Fin 4) (v : Word) : (s.setSeed w v).MAT = s.MAT := rfl
@[simp] theorem State.setSeed_SEEDED (s : State) (w : Fin 4) (v : Word) : (s.setSeed w v).SEEDED = s.SEEDED := rfl
@[simp] theorem State.setSeed_OUT_VALID (s : State) (w : Fin 4) (v : Word) : (s.setSeed w v).OUT_VALID = s.OUT_VALID := rfl
@[simp] theorem State.setSeed_MATRIX_VALID (s : State) (w : Fin 4) (v : Word) : (s.setSeed w v).MATRIX_VALID = s.MATRIX_VALID := rfl
@[simp] theorem State.setSeed_ERR (s : State) (w : Fin 4) (v : Word) : (s.setSeed w v).ERR = s.ERR := rfl
@[simp] theorem State.setSeed_LAST_RANK (s : State) (w : Fin 4) (v : Word) : (s.setSeed w v).LAST_RANK = s.LAST_RANK := rfl
@[simp] theorem State.setSeed_ATTEMPTS (s : State) (w : Fin 4) (v : Word) : (s.setSeed w v).ATTEMPTS = s.ATTEMPTS := rfl
@[simp] theorem State.setSeed_PHASE (s : State) (w : Fin 4) (v : Word) : (s.setSeed w v).PHASE = s.PHASE := rfl
@[simp] theorem State.setSeed_ROW (s : State) (w : Fin 4) (v : Word) : (s.setSeed w v).ROW = s.ROW := rfl
@[simp] theorem State.setSeed_BLK (s : State) (w : Fin 4) (v : Word) : (s.setSeed w v).BLK = s.BLK := rfl
@[simp] theorem State.setSeed_host (s : State) (w : Fin 4) (v : Word) : (s.setSeed w v).host = s.host := rfl
@[simp] theorem State.setSeed_turns (s : State) (w : Fin 4) (v : Word) : (s.setSeed w v).turns = s.turns := rfl
@[simp] theorem State.setSeed_log (s : State) (w : Fin 4) (v : Word) : (s.setSeed w v).log = s.log := rfl
@[simp] theorem State.setSeed_rankTable (s : State) (w : Fin 4) (v : Word) : (s.setSeed w v).rankTable = s.rankTable := rfl

/-! ### record -/

@[simp] theorem State.record_S (s : State) (r : Response) : (s.record r).S = s.S := rfl
@[simp] theorem State.record_SEED (s : State) (r : Response) : (s.record r).SEED = s.SEED := rfl
@[simp] theorem State.record_OUT (s : State) (r : Response) : (s.record r).OUT = s.OUT := rfl
@[simp] theorem State.record_MAT (s : State) (r : Response) : (s.record r).MAT = s.MAT := rfl
@[simp] theorem State.record_SEEDED (s : State) (r : Response) : (s.record r).SEEDED = s.SEEDED := rfl
@[simp] theorem State.record_OUT_VALID (s : State) (r : Response) : (s.record r).OUT_VALID = s.OUT_VALID := rfl
@[simp] theorem State.record_MATRIX_VALID (s : State) (r : Response) : (s.record r).MATRIX_VALID = s.MATRIX_VALID := rfl
@[simp] theorem State.record_ERR (s : State) (r : Response) : (s.record r).ERR = s.ERR := rfl
@[simp] theorem State.record_LAST_RANK (s : State) (r : Response) : (s.record r).LAST_RANK = s.LAST_RANK := rfl
@[simp] theorem State.record_ATTEMPTS (s : State) (r : Response) : (s.record r).ATTEMPTS = s.ATTEMPTS := rfl
@[simp] theorem State.record_PHASE (s : State) (r : Response) : (s.record r).PHASE = s.PHASE := rfl
@[simp] theorem State.record_ROW (s : State) (r : Response) : (s.record r).ROW = s.ROW := rfl
@[simp] theorem State.record_BLK (s : State) (r : Response) : (s.record r).BLK = s.BLK := rfl
@[simp] theorem State.record_host (s : State) (r : Response) : (s.record r).host = s.host := rfl
@[simp] theorem State.record_turns (s : State) (r : Response) : (s.record r).turns = s.turns := rfl
@[simp] theorem State.record_log (s : State) (r : Response) : (s.record r).log = r :: s.log := rfl
@[simp] theorem State.record_rankTable (s : State) (r : Response) : (s.record r).rankTable = s.rankTable := rfl

/-! ### popHost -/

@[simp] theorem State.popHost_S (s : State) : (s.popHost).S = s.S := rfl
@[simp] theorem State.popHost_SEED (s : State) : (s.popHost).SEED = s.SEED := rfl
@[simp] theorem State.popHost_OUT (s : State) : (s.popHost).OUT = s.OUT := rfl
@[simp] theorem State.popHost_MAT (s : State) : (s.popHost).MAT = s.MAT := rfl
@[simp] theorem State.popHost_SEEDED (s : State) : (s.popHost).SEEDED = s.SEEDED := rfl
@[simp] theorem State.popHost_OUT_VALID (s : State) : (s.popHost).OUT_VALID = s.OUT_VALID := rfl
@[simp] theorem State.popHost_MATRIX_VALID (s : State) : (s.popHost).MATRIX_VALID = s.MATRIX_VALID := rfl
@[simp] theorem State.popHost_ERR (s : State) : (s.popHost).ERR = s.ERR := rfl
@[simp] theorem State.popHost_LAST_RANK (s : State) : (s.popHost).LAST_RANK = s.LAST_RANK := rfl
@[simp] theorem State.popHost_ATTEMPTS (s : State) : (s.popHost).ATTEMPTS = s.ATTEMPTS := rfl
@[simp] theorem State.popHost_PHASE (s : State) : (s.popHost).PHASE = s.PHASE := rfl
@[simp] theorem State.popHost_ROW (s : State) : (s.popHost).ROW = s.ROW := rfl
@[simp] theorem State.popHost_BLK (s : State) : (s.popHost).BLK = s.BLK := rfl
@[simp] theorem State.popHost_host (s : State) : (s.popHost).host = s.host.tail := rfl
@[simp] theorem State.popHost_turns (s : State) : (s.popHost).turns = s.turns := rfl
@[simp] theorem State.popHost_log (s : State) : (s.popHost).log = s.log := rfl
@[simp] theorem State.popHost_rankTable (s : State) : (s.popHost).rankTable = s.rankTable := rfl

/-! ### takeTurn -/

@[simp] theorem State.takeTurn_S (s : State) : (s.takeTurn).S = s.S := rfl
@[simp] theorem State.takeTurn_SEED (s : State) : (s.takeTurn).SEED = s.SEED := rfl
@[simp] theorem State.takeTurn_OUT (s : State) : (s.takeTurn).OUT = s.OUT := rfl
@[simp] theorem State.takeTurn_MAT (s : State) : (s.takeTurn).MAT = s.MAT := rfl
@[simp] theorem State.takeTurn_SEEDED (s : State) : (s.takeTurn).SEEDED = s.SEEDED := rfl
@[simp] theorem State.takeTurn_OUT_VALID (s : State) : (s.takeTurn).OUT_VALID = s.OUT_VALID := rfl
@[simp] theorem State.takeTurn_MATRIX_VALID (s : State) : (s.takeTurn).MATRIX_VALID = s.MATRIX_VALID := rfl
@[simp] theorem State.takeTurn_ERR (s : State) : (s.takeTurn).ERR = s.ERR := rfl
@[simp] theorem State.takeTurn_LAST_RANK (s : State) : (s.takeTurn).LAST_RANK = s.LAST_RANK := rfl
@[simp] theorem State.takeTurn_ATTEMPTS (s : State) : (s.takeTurn).ATTEMPTS = s.ATTEMPTS := rfl
@[simp] theorem State.takeTurn_PHASE (s : State) : (s.takeTurn).PHASE = s.PHASE := rfl
@[simp] theorem State.takeTurn_ROW (s : State) : (s.takeTurn).ROW = s.ROW := rfl
@[simp] theorem State.takeTurn_BLK (s : State) : (s.takeTurn).BLK = s.BLK := rfl
@[simp] theorem State.takeTurn_host (s : State) : (s.takeTurn).host = s.host := rfl
@[simp] theorem State.takeTurn_turns (s : State) : (s.takeTurn).turns = s.turns.tail := rfl
@[simp] theorem State.takeTurn_log (s : State) : (s.takeTurn).log = s.log := rfl
@[simp] theorem State.takeTurn_rankTable (s : State) : (s.takeTurn).rankTable = s.rankTable := rfl

/-! ### store -/

@[simp] theorem State.store_S (s : State) (v : Word) : (s.store v).S = s.S := rfl
@[simp] theorem State.store_SEED (s : State) (v : Word) : (s.store v).SEED = s.SEED := rfl
@[simp] theorem State.store_OUT (s : State) (v : Word) : (s.store v).OUT = s.OUT := rfl
@[simp] theorem State.store_MAT (s : State) (v : Word) : (s.store v).MAT = unpack s.MAT s.ROW s.BLK v := rfl
@[simp] theorem State.store_SEEDED (s : State) (v : Word) : (s.store v).SEEDED = s.SEEDED := rfl
@[simp] theorem State.store_OUT_VALID (s : State) (v : Word) : (s.store v).OUT_VALID = s.OUT_VALID := rfl
@[simp] theorem State.store_MATRIX_VALID (s : State) (v : Word) : (s.store v).MATRIX_VALID = s.MATRIX_VALID := rfl
@[simp] theorem State.store_ERR (s : State) (v : Word) : (s.store v).ERR = s.ERR := rfl
@[simp] theorem State.store_LAST_RANK (s : State) (v : Word) : (s.store v).LAST_RANK = s.LAST_RANK := rfl
@[simp] theorem State.store_ATTEMPTS (s : State) (v : Word) : (s.store v).ATTEMPTS = s.ATTEMPTS := rfl
@[simp] theorem State.store_PHASE (s : State) (v : Word) : (s.store v).PHASE = s.PHASE := rfl
@[simp] theorem State.store_ROW (s : State) (v : Word) : (s.store v).ROW = s.ROW := rfl
@[simp] theorem State.store_BLK (s : State) (v : Word) : (s.store v).BLK = s.BLK := rfl
@[simp] theorem State.store_host (s : State) (v : Word) : (s.store v).host = s.host := rfl
@[simp] theorem State.store_turns (s : State) (v : Word) : (s.store v).turns = s.turns := rfl
@[simp] theorem State.store_log (s : State) (v : Word) : (s.store v).log = s.log := rfl
@[simp] theorem State.store_rankTable (s : State) (v : Word) : (s.store v).rankTable = s.rankTable := rfl

/-! ### countRank -/

@[simp] theorem State.countRank_S (s : State) (r : BitVec 7) : (s.countRank r).S = s.S := rfl
@[simp] theorem State.countRank_SEED (s : State) (r : BitVec 7) : (s.countRank r).SEED = s.SEED := rfl
@[simp] theorem State.countRank_OUT (s : State) (r : BitVec 7) : (s.countRank r).OUT = s.OUT := rfl
@[simp] theorem State.countRank_MAT (s : State) (r : BitVec 7) : (s.countRank r).MAT = s.MAT := rfl
@[simp] theorem State.countRank_SEEDED (s : State) (r : BitVec 7) : (s.countRank r).SEEDED = s.SEEDED := rfl
@[simp] theorem State.countRank_OUT_VALID (s : State) (r : BitVec 7) : (s.countRank r).OUT_VALID = s.OUT_VALID := rfl
@[simp] theorem State.countRank_MATRIX_VALID (s : State) (r : BitVec 7) : (s.countRank r).MATRIX_VALID = s.MATRIX_VALID := rfl
@[simp] theorem State.countRank_ERR (s : State) (r : BitVec 7) : (s.countRank r).ERR = s.ERR := rfl
@[simp] theorem State.countRank_LAST_RANK (s : State) (r : BitVec 7) : (s.countRank r).LAST_RANK = r := rfl
@[simp] theorem State.countRank_ATTEMPTS (s : State) (r : BitVec 7) : (s.countRank r).ATTEMPTS = countAttempt s.ATTEMPTS := rfl
@[simp] theorem State.countRank_PHASE (s : State) (r : BitVec 7) : (s.countRank r).PHASE = s.PHASE := rfl
@[simp] theorem State.countRank_ROW (s : State) (r : BitVec 7) : (s.countRank r).ROW = s.ROW := rfl
@[simp] theorem State.countRank_BLK (s : State) (r : BitVec 7) : (s.countRank r).BLK = s.BLK := rfl
@[simp] theorem State.countRank_host (s : State) (r : BitVec 7) : (s.countRank r).host = s.host := rfl
@[simp] theorem State.countRank_turns (s : State) (r : BitVec 7) : (s.countRank r).turns = s.turns := rfl
@[simp] theorem State.countRank_log (s : State) (r : BitVec 7) : (s.countRank r).log = s.log := rfl
@[simp] theorem State.countRank_rankTable (s : State) (r : BitVec 7) : (s.countRank r).rankTable = s.rankTable := rfl

/-! ### withEngineTurns -/

@[simp] theorem State.withEngineTurns_S (s : State) (n : Nat) : (s.withEngineTurns n).S = s.S := rfl
@[simp] theorem State.withEngineTurns_SEED (s : State) (n : Nat) : (s.withEngineTurns n).SEED = s.SEED := rfl
@[simp] theorem State.withEngineTurns_OUT (s : State) (n : Nat) : (s.withEngineTurns n).OUT = s.OUT := rfl
@[simp] theorem State.withEngineTurns_MAT (s : State) (n : Nat) : (s.withEngineTurns n).MAT = s.MAT := rfl
@[simp] theorem State.withEngineTurns_SEEDED (s : State) (n : Nat) : (s.withEngineTurns n).SEEDED = s.SEEDED := rfl
@[simp] theorem State.withEngineTurns_OUT_VALID (s : State) (n : Nat) : (s.withEngineTurns n).OUT_VALID = s.OUT_VALID := rfl
@[simp] theorem State.withEngineTurns_MATRIX_VALID (s : State) (n : Nat) : (s.withEngineTurns n).MATRIX_VALID = s.MATRIX_VALID := rfl
@[simp] theorem State.withEngineTurns_ERR (s : State) (n : Nat) : (s.withEngineTurns n).ERR = s.ERR := rfl
@[simp] theorem State.withEngineTurns_LAST_RANK (s : State) (n : Nat) : (s.withEngineTurns n).LAST_RANK = s.LAST_RANK := rfl
@[simp] theorem State.withEngineTurns_ATTEMPTS (s : State) (n : Nat) : (s.withEngineTurns n).ATTEMPTS = s.ATTEMPTS := rfl
@[simp] theorem State.withEngineTurns_PHASE (s : State) (n : Nat) : (s.withEngineTurns n).PHASE = s.PHASE := rfl
@[simp] theorem State.withEngineTurns_ROW (s : State) (n : Nat) : (s.withEngineTurns n).ROW = s.ROW := rfl
@[simp] theorem State.withEngineTurns_BLK (s : State) (n : Nat) : (s.withEngineTurns n).BLK = s.BLK := rfl
@[simp] theorem State.withEngineTurns_host (s : State) (n : Nat) : (s.withEngineTurns n).host = s.host := rfl
@[simp] theorem State.withEngineTurns_turns (s : State) (n : Nat) : (s.withEngineTurns n).turns = List.replicate n .engine ++ s.turns := rfl
@[simp] theorem State.withEngineTurns_log (s : State) (n : Nat) : (s.withEngineTurns n).log = s.log := rfl
@[simp] theorem State.withEngineTurns_rankTable (s : State) (n : Nat) : (s.withEngineTurns n).rankTable = s.rankTable := rfl

/-! ### advance -/

@[simp] theorem State.advance_S (s : State) : (s.advance).S = s.S := by
  unfold State.advance; split <;> (try split) <;> rfl
@[simp] theorem State.advance_SEED (s : State) : (s.advance).SEED = s.SEED := by
  unfold State.advance; split <;> (try split) <;> rfl
@[simp] theorem State.advance_OUT (s : State) : (s.advance).OUT = s.OUT := by
  unfold State.advance; split <;> (try split) <;> rfl
@[simp] theorem State.advance_MAT (s : State) : (s.advance).MAT = s.MAT := by
  unfold State.advance; split <;> (try split) <;> rfl
@[simp] theorem State.advance_SEEDED (s : State) : (s.advance).SEEDED = s.SEEDED := by
  unfold State.advance; split <;> (try split) <;> rfl
@[simp] theorem State.advance_OUT_VALID (s : State) : (s.advance).OUT_VALID = s.OUT_VALID := by
  unfold State.advance; split <;> (try split) <;> rfl
@[simp] theorem State.advance_MATRIX_VALID (s : State) : (s.advance).MATRIX_VALID = s.MATRIX_VALID := by
  unfold State.advance; split <;> (try split) <;> rfl
@[simp] theorem State.advance_ERR (s : State) : (s.advance).ERR = s.ERR := by
  unfold State.advance; split <;> (try split) <;> rfl
@[simp] theorem State.advance_LAST_RANK (s : State) : (s.advance).LAST_RANK = s.LAST_RANK := by
  unfold State.advance; split <;> (try split) <;> rfl
@[simp] theorem State.advance_ATTEMPTS (s : State) : (s.advance).ATTEMPTS = s.ATTEMPTS := by
  unfold State.advance; split <;> (try split) <;> rfl
@[simp] theorem State.advance_host (s : State) : (s.advance).host = s.host := by
  unfold State.advance; split <;> (try split) <;> rfl
@[simp] theorem State.advance_turns (s : State) : (s.advance).turns = s.turns := by
  unfold State.advance; split <;> (try split) <;> rfl
@[simp] theorem State.advance_log (s : State) : (s.advance).log = s.log := by
  unfold State.advance; split <;> (try split) <;> rfl
@[simp] theorem State.advance_rankTable (s : State) : (s.advance).rankTable = s.rankTable := by
  unfold State.advance; split <;> (try split) <;> rfl

/-! ### judge -/

@[simp] theorem State.judge_S (s : State) (r : BitVec 7) : (s.judge r).S = s.S := by
  unfold State.judge; split <;> rfl
@[simp] theorem State.judge_SEED (s : State) (r : BitVec 7) : (s.judge r).SEED = s.SEED := by
  unfold State.judge; split <;> rfl
@[simp] theorem State.judge_OUT (s : State) (r : BitVec 7) : (s.judge r).OUT = s.OUT := by
  unfold State.judge; split <;> rfl
@[simp] theorem State.judge_MAT (s : State) (r : BitVec 7) : (s.judge r).MAT = s.MAT := by
  unfold State.judge; split <;> rfl
@[simp] theorem State.judge_SEEDED (s : State) (r : BitVec 7) : (s.judge r).SEEDED = s.SEEDED := by
  unfold State.judge; split <;> rfl
@[simp] theorem State.judge_OUT_VALID (s : State) (r : BitVec 7) : (s.judge r).OUT_VALID = s.OUT_VALID := by
  unfold State.judge; split <;> rfl
@[simp] theorem State.judge_ERR (s : State) (r : BitVec 7) : (s.judge r).ERR = s.ERR := by
  unfold State.judge; split <;> rfl
@[simp] theorem State.judge_ROW (s : State) (r : BitVec 7) : (s.judge r).ROW = s.ROW := by
  unfold State.judge; split <;> rfl
@[simp] theorem State.judge_BLK (s : State) (r : BitVec 7) : (s.judge r).BLK = s.BLK := by
  unfold State.judge; split <;> rfl
@[simp] theorem State.judge_host (s : State) (r : BitVec 7) : (s.judge r).host = s.host := by
  unfold State.judge; split <;> rfl
@[simp] theorem State.judge_turns (s : State) (r : BitVec 7) : (s.judge r).turns = s.turns := by
  unfold State.judge; split <;> rfl
@[simp] theorem State.judge_log (s : State) (r : BitVec 7) : (s.judge r).log = s.log := by
  unfold State.judge; split <;> rfl
@[simp] theorem State.judge_rankTable (s : State) (r : BitVec 7) : (s.judge r).rankTable = s.rankTable := by
  unfold State.judge; split <;> rfl

@[simp] theorem State.judge_LAST_RANK (s : State) (r : BitVec 7) : (s.judge r).LAST_RANK = r := by
  unfold State.judge; split <;> rfl
@[simp] theorem State.judge_ATTEMPTS (s : State) (r : BitVec 7) : (s.judge r).ATTEMPTS = countAttempt s.ATTEMPTS := by
  unfold State.judge; split <;> rfl

theorem State.judge_accept (s : State) {r : BitVec 7} (h : r.toNat = Config.fullRank) :
    s.judge r = { s.countRank r with MATRIX_VALID := true, PHASE := .idle } := if_pos h

theorem State.judge_retry (s : State) {r : BitVec 7} (h : r.toNat ≠ Config.fullRank) :
    s.judge r = { s.countRank r with PHASE := .fill } := if_neg h

/-- R30: saturating, as a number. -/
theorem countAttempt_toNat (a : BitVec 32) : (countAttempt a).toNat = min (a.toNat + 1) (2 ^ 32 - 1) := by
  simp [countAttempt, Config.attemptsMax]

/-! ### The views -/

theorem State.busy_iff (s : State) : s.busy = true ↔ s.PHASE ≠ .idle := by simp [State.busy]

theorem State.busy_eq_false_iff (s : State) : s.busy = false ↔ s.PHASE = .idle := by simp [State.busy]

end Sys2Proof.Machine
end

