-- ==== Sys2Proof/Laws/Store.lean ====
section
/-! SUPPORT. The matrix store and CheckMatrix, read entry by entry: what one write of each kind leaves in each entry. -/

namespace Sys2Proof.Machine

/-! ### The matrix store -/

/-- R141, lane by lane: the written block holds the draw's nibbles, and every other entry is as before. -/
theorem unpack_entry (m : MatrixStore) (i : Fin 64) (b : Fin 4) (v : Word) (r c : Fin 64) :
    (unpack m i b v)[r.val][c.val] =
      if r = i ∧ c.val / 16 = b.val then some (nibble v (c.val % 16)) else m[r.val][c.val] := by
  by_cases h : r = i
  · subst h; simp [unpack]
  · have h' : i.val ≠ r.val := fun e => h (Fin.ext e.symm)
    simp [unpack, h', h]

theorem unwritten_entry (r c : Fin 64) : MatrixStore.unwritten[r.val][c.val] = none := by
  simp [MatrixStore.unwritten]

theorem full_iff (m : MatrixStore) : m.full = true ↔ ∀ r c : Fin 64, (m[r.val][c.val]).isSome = true := by
  simp only [MatrixStore.full, Vector.all_eq_true]
  exact ⟨fun h r c => h r.val r.isLt c.val c.isLt, fun h r hr c hc => h ⟨r, hr⟩ ⟨c, hc⟩⟩

/-- R182: the copy that the rank port is sent shows exactly what the store holds. -/
theorem snapshot_eq_some_iff (m : MatrixStore) (a : Mat64) :
    snapshot m = some a ↔ ∀ r c : Fin 64, m[r.val][c.val] = some (a[r.val][c.val]) := by
  constructor
  · intro h r c
    unfold snapshot at h
    split at h
    · next hf =>
      obtain ⟨x, hx⟩ := Option.isSome_iff_exists.1 ((full_iff m).1 hf r c)
      cases h
      simp [hx]
    · cases h
  · intro h
    have hf : m.full = true := (full_iff m).2 fun r c => by simp [h r c]
    simp only [snapshot, hf, if_true, Option.some.injEq]
    ext r hr c hc
    simp [h ⟨r, hr⟩ ⟨c, hc⟩]

/-- R36: there is no copy exactly when some entry holds no value. -/
theorem snapshot_eq_none_iff (m : MatrixStore) : snapshot m = none ↔ ∃ r c : Fin 64, m[r.val][c.val] = none := by
  unfold snapshot
  split
  · next hf =>
    refine iff_of_false (by simp) ?_
    rintro ⟨r, c, h⟩
    simpa [h] using (full_iff m).1 hf r c
  · next hf => simpa [full_iff] using hf

@[simp] theorem attemptMatrix_entry (p : Prng) (i j : Fin 64) :
    (attemptMatrix p)[i.val][j.val] = nibble (p.draw (4 * i.val + j.val / 16)) (j.val % 16) := by
  simp [attemptMatrix]

/-! ### CheckMatrix -/

theorem CheckMatrix.at_eq {n : Nat} (m : CheckMatrix n) {r c : Nat} (hr : r < n) (hc : c < n) :
    m.at r c = m[r][c] := by
  simp [CheckMatrix.at, hr, hc]

theorem CheckMatrix.at_of {n : Nat} (f : Nat → Nat → Rat) {r c : Nat} (hr : r < n) (hc : c < n) :
    (CheckMatrix.of n f).at r c = f r c := by
  rw [CheckMatrix.at_eq _ hr hc]; simp [CheckMatrix.of]

theorem CheckMatrix.at_eliminate {n : Nat} (m : CheckMatrix n) (rank row : Nat) {r c : Nat} (hr : r < n) (hc : c < n) :
    (m.eliminate rank row).at r c =
      if r ≠ row ∧ c < rank then m.at r c - m.at r row / m.at row row * m.at row c else m.at r c := by
  rw [CheckMatrix.at_eq _ hr hc]; simp [CheckMatrix.eliminate]

theorem CheckMatrix.at_swapRows {n : Nat} (m : CheckMatrix n) (rank row p : Nat) {r c : Nat} (hr : r < n) (hc : c < n) :
    (m.swapRows rank row p).at r c =
      if c < rank then (if r = row then m.at p c else if r = p then m.at row c else m.at r c) else m.at r c :=
  CheckMatrix.at_of _ hr hc

theorem CheckMatrix.at_moveColumn {n : Nat} (m : CheckMatrix n) (row last : Nat) {r c : Nat} (hr : r < n) (hc : c < n) :
    (m.moveColumn row last).at r c = if c = row then m.at r last else m.at r c :=
  CheckMatrix.at_of _ hr hc

/-- R186: the row found is below `row`, inside the matrix, and its entry in the column is not zero. -/
theorem CheckMatrix.lowerPivot_some {n : Nat} {m : CheckMatrix n} {row p : Nat} (h : m.lowerPivot row = some p) :
    row < p ∧ p < n ∧ m.at p row ≠ 0 := by
  have h1 := List.find?_some h
  have h2 := List.mem_of_find?_eq_some h
  simp at h1 h2
  exact ⟨h1.1, h2, h1.2⟩

theorem CheckMatrix.lowerPivot_none {n : Nat} {m : CheckMatrix n} {row : Nat} (h : m.lowerPivot row = none)
    {i : Nat} (hi : row < i) (hn : i < n) : m.at i row = 0 := by
  simpa [hi] using List.find?_eq_none.1 h i (List.mem_range.2 hn)

/-- R183: what one iteration of the loop does, its three cases and its end. -/
theorem RankLoop.iterate_cases {n : Nat} {l l' : RankLoop n} (h : l.iterate = some l') :
    l.row < l.rank ∧
      ((l.m.at l.row l.row ≠ 0 ∧ l' = ⟨l.m.eliminate l.rank l.row, l.rank, l.row + 1⟩) ∨
       (∃ p, l.m.at l.row l.row = 0 ∧ l.m.lowerPivot l.row = some p ∧ l' = ⟨l.m.swapRows l.rank l.row p, l.rank, l.row⟩) ∨
       (l.m.at l.row l.row = 0 ∧ l.m.lowerPivot l.row = none ∧
          l' = ⟨l.m.moveColumn l.row (l.rank - 1), l.rank - 1, l.row⟩)) := by
  unfold RankLoop.iterate at h
  split at h
  · next hlt =>
    refine ⟨hlt, ?_⟩
    split at h
    · next hp => cases h; exact .inl ⟨hp, rfl⟩
    · next hp =>
      have hp := not_not.1 hp
      split at h
      · next p hq => cases h; exact .inr (.inl ⟨p, hp, hq, rfl⟩)
      · next hq => cases h; exact .inr (.inr ⟨hp, hq, rfl⟩)
  · cases h

theorem RankLoop.iterate_eq_none_iff {n : Nat} {l : RankLoop n} : l.iterate = none ↔ l.rank ≤ l.row := by
  unfold RankLoop.iterate
  split
  · next h => refine iff_of_false ?_ (by omega); split <;> (try split) <;> simp
  · next h => exact iff_of_true rfl (by omega)

/-- Neither the loop nor its end raises the rank. -/
theorem RankLoop.run_rank_le {n : Nat} (fuel : Nat) (l : RankLoop n) : (RankLoop.run fuel l).rank ≤ l.rank := by
  induction fuel generalizing l with
  | zero => exact le_refl _
  | succ fuel ih =>
    unfold RankLoop.run
    split
    · next l' h =>
      refine (ih l').trans ?_
      obtain ⟨-, ⟨-, rfl⟩ | ⟨p, -, -, rfl⟩ | ⟨-, -, rfl⟩⟩ := iterate_cases h <;> simp
    · exact le_refl _

theorem rankOf_le {n : Nat} (m : CheckMatrix n) : rankOf m ≤ n := RankLoop.run_rank_le _ _

/-- R180: RefRank answers 0..64, so the 7 bits of the port hold its answer whole. -/
theorem refRank_toNat (a : Mat64) : (BitVec.ofNat 7 (refRank a)).toNat = refRank a := by
  have : refRank a ≤ 64 := rankOf_le _
  simp; omega

/-! ### The rank port -/

/-- R183: the empty table is the exact rank checker. -/
theorem rankFn_nil (a : Mat64) : rankFn [] a = BitVec.ofNat 7 (refRank a) := rfl

theorem rankFn_hit (t : RankTable) (a : Mat64) (r : BitVec 7) : rankFn ((a, r) :: t) a = r := by
  simp [rankFn, rankLookup]

theorem rankFn_miss (t : RankTable) {a b : Mat64} (r : BitVec 7) (h : b ≠ a) :
    rankFn ((b, r) :: t) a = rankFn t a := by
  simp [rankFn, rankLookup, h]

end Sys2Proof.Machine
end

