-- ==== Sys2Proof/Laws/Steps.lean ====
section
/-! SUPPORT. For each shared operation, each meaning and each agent, one lemma that says all it can do when it answers a
next state; proofs cite these and do not unfold the definitions. -/

namespace Sys2Proof.Machine

variable {s t : State}

/-! ### The checks of R85 and the draw -/

theorem whenIdle_next {k : Host.Outcome State Fault Refusal} (h : whenIdle s k = .next t) :
    (s.PHASE = .idle ∧ k = .next t) ∨ (s.PHASE ≠ .idle ∧ t = s.fail .busy) := by
  unfold whenIdle at h
  split at h
  · next hp => exact .inl ⟨hp, h⟩
  · next hp => cases h; exact .inr ⟨hp, rfl⟩

theorem whenLength_next {len : Nat} {k : Host.Outcome State Fault Refusal} (h : whenLength len s k = .next t) :
    (len = 32 ∧ k = .next t) ∨ (len ≠ 32 ∧ t = s.fail .invalidSeedLength) := by
  unfold whenLength at h
  split at h
  · next hp => exact .inl ⟨hp, h⟩
  · next hp => cases h; exact .inr ⟨hp, rfl⟩

theorem whenSeeded_next {k : Host.Outcome State Fault Refusal} (h : whenSeeded s k = .next t) :
    (s.SEEDED = true ∧ k = .next t) ∨ (s.SEEDED = false ∧ t = s.fail .notSeeded) := by
  unfold whenSeeded at h
  split at h
  · next hp => exact .inl ⟨hp, h⟩
  · next hp => cases h; exact .inr ⟨by simpa using hp, rfl⟩

theorem withDraw_next {k : Word → State → Host.Outcome State Fault Refusal} (h : withDraw s k = .next t) :
    ∃ p, s.S = some p ∧ k p.out (s.drawn p) = .next t := by
  unfold withDraw at h
  split at h
  · next p hp => exact ⟨p, hp, h⟩
  · cases h

theorem withDraw_some {k : Word → State → Host.Outcome State Fault Refusal} {p : Prng} (h : s.S = some p) :
    withDraw s k = k p.out (s.drawn p) := by
  unfold withDraw; rw [h]; rfl

/-! ### The meanings -/

theorem execAbort_next (h : execAbort s = .next t) :
    (s.PHASE = .idle ∧ t = s) ∨ (s.PHASE ≠ .idle ∧ t = s.stopGeneration.setErr .aborted) := by
  unfold execAbort at h
  split at h
  · next hp => cases h; exact .inl ⟨hp, rfl⟩
  · next hp => cases h; exact .inr ⟨hp, rfl⟩

theorem execLoadSeed_next {len : Nat} (h : execLoadSeed len s = .next t) :
    (s.PHASE ≠ .idle ∧ t = s.fail .busy) ∨
    (s.PHASE = .idle ∧ len ≠ 32 ∧ t = s.fail .invalidSeedLength) ∨
    (s.PHASE = .idle ∧ len = 32 ∧ t = s.seedLoad.setErr .none) := by
  obtain ⟨hp, h⟩ | h := whenIdle_next h
  · obtain ⟨hl, h⟩ | h := whenLength_next h
    · cases h; exact .inr (.inr ⟨hp, hl, rfl⟩)
    · exact .inr (.inl ⟨hp, h⟩)
  · exact .inl h

theorem execStep_next (h : execStep s = .next t) :
    (s.PHASE ≠ .idle ∧ t = s.fail .busy) ∨
    (s.PHASE = .idle ∧ s.SEEDED = false ∧ t = s.fail .notSeeded) ∨
    (∃ p, s.PHASE = .idle ∧ s.SEEDED = true ∧ s.S = some p ∧ t = (s.drawn p).setErr .none) := by
  obtain ⟨hp, h⟩ | h := whenIdle_next h
  · obtain ⟨hl, h⟩ | h := whenSeeded_next h
    · obtain ⟨p, hs, h⟩ := withDraw_next h
      cases h; exact .inr (.inr ⟨p, hp, hl, hs, rfl⟩)
    · exact .inr (.inl ⟨hp, h⟩)
  · exact .inl h

theorem execGenSeeded_next {len : Nat} (h : execGenSeeded len s = .next t) :
    (s.PHASE ≠ .idle ∧ t = s.fail .busy) ∨
    (s.PHASE = .idle ∧ len ≠ 32 ∧ t = s.fail .invalidSeedLength) ∨
    (s.PHASE = .idle ∧ len = 32 ∧ t = s.seedLoad.startGeneration.setErr .none) := by
  obtain ⟨hp, h⟩ | h := whenIdle_next h
  · obtain ⟨hl, h⟩ | h := whenLength_next h
    · cases h; exact .inr (.inr ⟨hp, hl, rfl⟩)
    · exact .inr (.inl ⟨hp, h⟩)
  · exact .inl h

theorem execGenContinue_next (h : execGenContinue s = .next t) :
    (s.PHASE ≠ .idle ∧ t = s.fail .busy) ∨
    (s.PHASE = .idle ∧ s.SEEDED = false ∧ t = s.fail .notSeeded) ∨
    (s.PHASE = .idle ∧ s.SEEDED = true ∧ t = s.startGeneration.setErr .none) := by
  obtain ⟨hp, h⟩ | h := whenIdle_next h
  · obtain ⟨hl, h⟩ | h := whenSeeded_next h
    · cases h; exact .inr (.inr ⟨hp, hl, rfl⟩)
    · exact .inr (.inl ⟨hp, h⟩)
  · exact .inl h

/-- All that a command can do: nothing, an error code, or its own effect where it is accepted. -/
theorem exec_next {i : Instr} (h : exec i s = .next t) :
    t = s ∨ (∃ e, t = s.fail e) ∨
    (i = .abort ∧ s.PHASE ≠ .idle ∧ t = s.stopGeneration.setErr .aborted) ∨
    (i = .loadSeed 32 ∧ s.PHASE = .idle ∧ t = s.seedLoad.setErr .none) ∨
    (∃ p, i = .step ∧ s.PHASE = .idle ∧ s.SEEDED = true ∧ s.S = some p ∧ t = (s.drawn p).setErr .none) ∨
    (i = .genSeeded 32 ∧ s.PHASE = .idle ∧ t = s.seedLoad.startGeneration.setErr .none) ∨
    (i = .genContinue ∧ s.PHASE = .idle ∧ s.SEEDED = true ∧ t = s.startGeneration.setErr .none) := by
  cases i with
  | nop => cases h; exact .inl rfl
  | abort => rcases execAbort_next h with ⟨_, rfl⟩ | ⟨h, rfl⟩ <;> simp_all
  | loadSeed len =>
    rcases execLoadSeed_next h with ⟨_, rfl⟩ | ⟨_, _, rfl⟩ | ⟨h, rfl, rfl⟩
    · exact .inr (.inl ⟨_, rfl⟩)
    · exact .inr (.inl ⟨_, rfl⟩)
    · simp_all
  | genSeeded len =>
    rcases execGenSeeded_next h with ⟨_, rfl⟩ | ⟨_, _, rfl⟩ | ⟨h, rfl, rfl⟩
    · exact .inr (.inl ⟨_, rfl⟩)
    · exact .inr (.inl ⟨_, rfl⟩)
    · simp_all
  | step =>
    rcases execStep_next h with ⟨_, rfl⟩ | ⟨_, _, rfl⟩ | ⟨p, h, h1, h2, rfl⟩
    · exact .inr (.inl ⟨_, rfl⟩)
    · exact .inr (.inl ⟨_, rfl⟩)
    · simp_all
  | genContinue =>
    rcases execGenContinue_next h with ⟨_, rfl⟩ | ⟨_, _, rfl⟩ | ⟨h, h1, rfl⟩
    · exact .inr (.inl ⟨_, rfl⟩)
    · exact .inr (.inl ⟨_, rfl⟩)
    · simp_all

/-! ### The engine -/

theorem State.advance_cases (s : State) :
    (s.BLK < 3 ∧ s.advance = { s with BLK := s.BLK + 1 }) ∨
    (s.BLK = 3 ∧ s.ROW < 63 ∧ s.advance = { s with BLK := 0, ROW := s.ROW + 1 }) ∨
    (s.BLK = 3 ∧ s.ROW = 63 ∧ s.advance = { s with BLK := 0, ROW := 0, PHASE := .check }) := by
  unfold State.advance
  split
  · next h => exact .inl ⟨h, rfl⟩
  · next h =>
    have hb : s.BLK = 3 := by omega
    split
    · next h' => exact .inr (.inl ⟨hb, h', rfl⟩)
    · next h' => exact .inr (.inr ⟨hb, by omega, rfl⟩)

theorem checkStep_answered {a : Mat64} {r : BitVec 7} (ha : snapshot s.MAT = some a) (hr : rankFn s.rankTable a = r)
    (hl : r.toNat ≤ 64) : checkStep s = .next (s.judge r) := by
  subst hr
  unfold checkStep
  rw [ha]
  exact if_pos hl

theorem checkStep_next (h : checkStep s = .next t) :
    ∃ a, snapshot s.MAT = some a ∧ (rankFn s.rankTable a).toNat ≤ 64 ∧ t = s.judge (rankFn s.rankTable a) := by
  unfold checkStep at h
  split at h
  · cases h
  · next a ha =>
    simp only at h
    split at h
    · next hr => cases h; exact ⟨a, ha, hr, rfl⟩
    · cases h

theorem engineStep_next (h : engineStep s = .next t) :
    (s.PHASE = .idle ∧ t = s) ∨
    (∃ p, s.PHASE = .fill ∧ s.S = some p ∧ t = ((s.drawn p).store p.out).advance) ∨
    (∃ a, s.PHASE = .check ∧ snapshot s.MAT = some a ∧ (rankFn s.rankTable a).toNat ≤ 64 ∧
      t = s.judge (rankFn s.rankTable a)) := by
  unfold engineStep at h
  split at h
  · next hp => cases h; exact .inl ⟨hp, rfl⟩
  · next hp =>
    obtain ⟨p, hs, h⟩ := withDraw_next h
    cases h; exact .inr (.inl ⟨p, hp, hs, rfl⟩)
  · next hp =>
    obtain ⟨a, ha, hr, rfl⟩ := checkStep_next h
    exact .inr (.inr ⟨a, hp, ha, hr, rfl⟩)

/-! ### The window -/

theorem guarded_ok {g : Bool} {v : Option Word} {r : Response} (h : guarded g v = .ok r) :
    (g = true ∧ ∃ w, v = some w ∧ r = .data w) ∨ (g = false ∧ r = .busErr) := by
  cases g
  · cases h; exact .inr ⟨rfl, rfl⟩
  · cases v with
    | some w => cases h; exact .inl ⟨rfl, w, rfl, rfl⟩
    | none => cases h

/-- R59: a write executes a command, stages a seed word, or is dropped. -/
theorem memWrite_cases (s : State) (off : Offset) (size : Nat) (v : Word) :
    (accessOk off size = true ∧ regAt off = some .cmd ∧ memWrite s off size v = execute v (s.record .done)) ∨
    (∃ w, accessOk off size = true ∧ regAt off = some (.seed w) ∧
      memWrite s off size v = .next ((s.record .done).setSeed w v)) ∨
    memWrite s off size v = .next (s.record .busErr) := by
  unfold memWrite
  split
  · next ha =>
    split
    · next h => exact .inl ⟨ha, h, rfl⟩
    · next w h => exact .inr (.inl ⟨w, ha, h, rfl⟩)
    all_goals exact .inr (.inr rfl)
  · exact .inr (.inr rfl)

theorem withRead_next {off : Offset} {size : Nat} {k : Response → State → State}
    (h : withRead s off size k = .next t) : ∃ r, memRead s off size = .ok r ∧ t = k r (s.record r) := by
  unfold withRead at h
  split at h
  · next r hr => cases h; exact ⟨r, hr, rfl⟩
  · cases h

/-! ### CMD and the seed registers in the map -/

@[simp] theorem regAt_cmd : regAt 0#12 = some .cmd := by decide

@[simp] theorem accessOk_cmd : accessOk 0#12 8 = true := by decide

theorem regAt_eq_cmd {off : Offset} (h : regAt off = some .cmd) : off = 0x000 := by
  simp only [regAt] at h
  split at h
  · next h0 => exact BitVec.eq_of_toNat_eq (by simpa using h0)
  · repeat' split at h
    all_goals cases h

theorem regAt_eq_seed {off : Offset} {w : Fin 4} (h8 : off.toNat % 8 = 0) (h : regAt off = some (.seed w)) :
    off = BitVec.ofNat 12 (0x020 + 8 * w.val) := by
  simp only [regAt] at h
  repeat' split at h
  case isTrue => cases h
  all_goals try cases h
  apply BitVec.eq_of_toNat_eq
  simp [Fin.ofNat]
  omega

theorem accessOk_iff {off : Offset} {size : Nat} : accessOk off size = true ↔ size = 8 ∧ off.toNat % 8 = 0 := by
  simp [accessOk]

theorem execute_command {w : Word} {i : Instr} (h : decode w = .command i) : execute w s = exec i s := by
  unfold execute; rw [h]

theorem execute_bad {w : Word} {why : Bad} (h : decode w = .bad why) : execute w s = .next (s.fail .badCommand) := by
  unfold execute; rw [h]

/-! ### What the order of steps and the host's list do not touch -/

@[simp] theorem readReg_takeTurn (s : State) (r : Reg) : readReg s.takeTurn r = readReg s r := by cases r <;> rfl

@[simp] theorem memRead_takeTurn (s : State) (off : Offset) (size : Nat) :
    memRead s.takeTurn off size = memRead s off size := by
  unfold memRead
  simp

/-! ### The agents -/

theorem hostStep_next (h : hostStep s = .next t) :
    (s.host = [] ∧ t = s) ∨ (∃ op rest, s.host = op :: rest ∧ hostOp s op = .next t) := by
  unfold hostStep at h
  split at h
  · next op rest hh => exact .inr ⟨op, rest, hh, h⟩
  · next hh => cases h; exact .inl ⟨hh, rfl⟩

/-- R62: a step is the host's or the engine's. -/
theorem step_cases (s : State) :
    (nextAgent s = .host ∧ step s = hostStep s.takeTurn) ∨ (nextAgent s = .engine ∧ step s = engineStep s.takeTurn) := by
  unfold step agentStep
  cases nextAgent s
  · exact .inl ⟨rfl, rfl⟩
  · exact .inr ⟨rfl, rfl⟩

/-- The state on which an operation of the host acts: the turn and the operation behind it, the outcome seen. -/
abbrev State.accessed (s : State) (r : Response) : State := s.takeTurn.popHost.record r

/-- R59: a step that is a host write: a command, a seed word, or BUSERR. -/
theorem hostWrite_next {off : Offset} {size : Nat} {v : Word} (h : memWrite s off size v = .next t) :
    (off = 0x000 ∧ size = 8 ∧ execute v (s.record .done) = .next t) ∨
    (∃ w : Fin 4, off = BitVec.ofNat 12 (0x020 + 8 * w.val) ∧ size = 8 ∧ t = (s.record .done).setSeed w v) ∨
    t = s.record .busErr := by
  obtain ⟨ha, hr, he⟩ | ⟨w, ha, hr, he⟩ | he := memWrite_cases s off size v
  · exact .inl ⟨regAt_eq_cmd hr, (accessOk_iff.1 ha).1, he ▸ h⟩
  · refine .inr (.inl ⟨w, regAt_eq_seed (accessOk_iff.1 ha).2 hr, (accessOk_iff.1 ha).1, ?_⟩)
    rw [he] at h; cases h; rfl
  · rw [he] at h; cases h; exact .inr (.inr rfl)

/-- R62: all that one step can do. -/
theorem step_next (h : step s = .next t) :
    (engineNow s ∧ engineStep s.takeTurn = .next t) ∨
    (nextAgent s = .host ∧ s.host = [] ∧ t = s.takeTurn) ∨
    (∃ off size r, hostNow s (.read off size) ∧ memRead s off size = .ok r ∧ t = s.accessed r) ∨
    (∃ off mask v r, hostNow s (.poll off mask v) ∧ memRead s off 8 = .ok r ∧
      t = if pollEnds mask v r then s.accessed r else s.takeTurn.record r) ∨
    (∃ v i, hostNow s (.write 0x000 8 v) ∧ decode v = .command i ∧ exec i (s.accessed .done) = .next t) ∨
    (∃ v why, hostNow s (.write 0x000 8 v) ∧ decode v = .bad why ∧ t = (s.accessed .done).fail .badCommand) ∨
    (∃ (w : Fin 4) (v : Word), hostNow s (.write (BitVec.ofNat 12 (0x020 + 8 * w.val)) 8 v) ∧
      t = (s.accessed .done).setSeed w v) ∨
    (∃ off size v, hostNow s (.write off size v) ∧ t = s.accessed .busErr) ∨
    (hostNow s .reset ∧ t = s.takeTurn.popHost.resetDevice) := by
  obtain ⟨ha, hs⟩ | ⟨ha, hs⟩ := step_cases s
  · rw [hs] at h
    obtain ⟨hn, ht⟩ | ⟨op, rest, hh, ho⟩ := hostStep_next h
    · exact .inr (.inl ⟨ha, hn, ht⟩)
    · have hnow : hostNow s op := ⟨ha, by rw [show s.host = op :: rest from hh]; rfl⟩
      cases op with
      | read off size =>
        obtain ⟨r, hr, ht⟩ := withRead_next ho
        exact .inr (.inr (.inl ⟨off, size, r, hnow, by simpa using hr, ht⟩))
      | poll off mask v =>
        obtain ⟨r, hr, ht⟩ := withRead_next ho
        exact .inr (.inr (.inr (.inl ⟨off, mask, v, r, hnow, by simpa using hr, ht⟩)))
      | write off size v =>
        obtain ⟨rfl, rfl, he⟩ | ⟨w, rfl, rfl, ht⟩ | ht := hostWrite_next ho
        · cases hd : decode v with
          | command i => exact .inr (.inr (.inr (.inr (.inl ⟨v, i, hnow, hd, execute_command hd ▸ he⟩))))
          | bad why =>
            rw [execute_bad hd] at he; cases he
            exact .inr (.inr (.inr (.inr (.inr (.inl ⟨v, why, hnow, hd, rfl⟩)))))
        · exact .inr (.inr (.inr (.inr (.inr (.inr (.inl ⟨w, v, hnow, ht⟩))))))
        · exact .inr (.inr (.inr (.inr (.inr (.inr (.inr (.inl ⟨off, size, v, hnow, ht⟩)))))))
      | reset =>
        cases ho
        exact .inr (.inr (.inr (.inr (.inr (.inr (.inr (.inr ⟨hnow, rfl⟩)))))))
  · exact .inl ⟨ha, hs ▸ h⟩

/-! ### A step has one agent, one operation, one command -/

theorem hostNow_unique {a b : HostOp} (h : hostNow s a) (h' : hostNow s b) : a = b := by
  have := h.2.symm.trans h'.2
  simpa using this

theorem hostNow.not_engineNow {op : HostOp} (h : hostNow s op) : ¬ engineNow s := by
  intro he
  have := h.1.symm.trans he
  cases this

theorem commandNow_unique {v : Word} {i j : Instr} (h : hostNow s (.write 0x000 8 v)) (hd : decode v = .command i)
    (h' : commandNow s j) : j = i := by
  obtain ⟨w, hw, hh⟩ := h'
  cases hostNow_unique h hh
  rw [hd] at hw; cases hw; rfl

theorem not_badCommandNow {v : Word} {i : Instr} (h : hostNow s (.write 0x000 8 v)) (hd : decode v = .command i) :
    ¬ badCommandNow s := by
  rintro ⟨w, why, hw, hh⟩
  cases hostNow_unique h hh
  rw [hd] at hw; cases hw

/-! ### What the host's side leaves alone -/

theorem SameGenerator.refl (s : State) : SameGenerator s s := by constructor <;> rfl

theorem SameGenerator.trans {u : State} (h : SameGenerator s t) (h' : SameGenerator t u) : SameGenerator s u where
  S := h'.S.trans h.S
  OUT := h'.OUT.trans h.OUT
  MAT := h'.MAT.trans h.MAT
  SEEDED := h'.SEEDED.trans h.SEEDED
  OUT_VALID := h'.OUT_VALID.trans h.OUT_VALID
  MATRIX_VALID := h'.MATRIX_VALID.trans h.MATRIX_VALID
  LAST_RANK := h'.LAST_RANK.trans h.LAST_RANK
  ATTEMPTS := h'.ATTEMPTS.trans h.ATTEMPTS
  PHASE := h'.PHASE.trans h.PHASE
  ROW := h'.ROW.trans h.ROW
  BLK := h'.BLK.trans h.BLK
  rankTable := h'.rankTable.trans h.rankTable

theorem SameGenerator.takeTurn (s : State) : SameGenerator s s.takeTurn := by constructor <;> rfl

theorem SameGenerator.accessed (s : State) (r : Response) : SameGenerator s (s.accessed r) := by constructor <;> rfl

theorem SameGenerator.fail (s : State) (e : ErrCode) : SameGenerator s (s.fail e) := by constructor <;> rfl

theorem SameGenerator.setSeed (s : State) (w : Fin 4) (v : Word) : SameGenerator s (s.setSeed w v) := by
  constructor <;> rfl

end Sys2Proof.Machine
end

