-- ==== Sys2Proof/Laws/Runs.lean ====
section
/-! SUPPORT. Runs: their last step, and how far a number of FILL micro-steps brings an attempt. -/

namespace Sys2Proof.Machine

variable {s t u : State}

theorem run_succ {n : Nat} (h : run n s = .next t) (h' : step t = .next u) : run (n + 1) s = .next u := by
  induction n generalizing s with
  | zero => cases h; simp only [run, h']
  | succ n ih =>
    rw [run] at h ⊢
    cases hs : step s with
    | next v => rw [hs] at h; exact ih h
    | fault f => rw [hs] at h; cases h
    | refused r => rw [hs] at h; cases h

/-- With no step ordered, the step of a busy XMG is the engine's. -/
theorem step_busy (ht : s.turns = []) (hp : s.PHASE ≠ .idle) : step s = engineStep s := by
  have hb : s.busy = true := (State.busy_iff s).2 hp
  have hs : s.takeTurn = s := by unfold State.takeTurn; rw [ht, List.tail_nil, ← ht]
  simp [step, nextAgent, ht, hb, hs, agentStep]

/-- R140, R141: one more draw stands in the store. -/
theorem FilledFrom.unpack {m : MatrixStore} {p : Prng} {i : Fin 64} {b : Fin 4} (h : FilledFrom m p (4 * i.val + b.val)) :
    FilledFrom (unpack m i b (p.draw (4 * i.val + b.val))) p (4 * i.val + b.val + 1) := by
  intro r c hrc
  rw [unpack_entry]
  split
  · next hit => rw [hit.1, hit.2]
  · next miss =>
    apply h
    by_contra hh
    exact miss ⟨by ext; omega, by omega⟩

/-- R180: the rank port is sent the attempt's matrix. -/
theorem FilledFrom.snapshot {m : MatrixStore} {p : Prng} (h : FilledFrom m p 256) :
    snapshot m = some (attemptMatrix p) := by
  rw [snapshot_eq_some_iff]
  intro r c
  rw [h r c (by omega), attemptMatrix_entry]

theorem State.progress_advance (hp : s.PHASE = .fill) :
    s.advance.PHASE ≠ .idle ∧ s.advance.progress = s.progress + 1 := by
  rcases s.advance_cases with ⟨hb, he⟩ | ⟨hb, hr, he⟩ | ⟨hb, hr, he⟩ <;> rw [he]
  · have : (s.BLK + 1).val = s.BLK.val + 1 := by rw [Fin.val_add]; simp; omega
    exact ⟨by simp [hp], by simp only [State.progress, hp]; omega⟩
  · have : (s.ROW + 1).val = s.ROW.val + 1 := by rw [Fin.val_add]; simp; omega
    exact ⟨by simp [hp], by simp only [State.progress, hp, hb]; simp; omega⟩
  · exact ⟨by simp, by simp [State.progress, hp, hb, hr]⟩

/-- What n FILL micro-steps of an attempt from `p` have brought about. -/
structure Filling (s : State) (p : Prng) (n : Nat) (tbl : RankTable) : Prop where
  turns : s.turns = []
  busy : s.PHASE ≠ .idle
  progress : s.progress = n
  drawn : s.S = some (p.after n)
  filled : FilledFrom s.MAT p n
  table : s.rankTable = tbl

/-- R142: one FILL micro-step brings an attempt one draw on. -/
theorem Filling.step {p : Prng} {n : Nat} {tbl : RankTable} (h : Filling s p n tbl) (hn : n < 256) :
    ∃ t, step s = .next t ∧ Filling t p (n + 1) tbl := by
  have hpr := h.progress
  have hp : s.PHASE = .fill := by
    cases hp : s.PHASE with
    | idle => exact absurd hp h.busy
    | fill => rfl
    | check => simp only [State.progress, hp] at hpr; omega
  have hpos : 4 * s.ROW.val + s.BLK.val = n := by simpa [State.progress, hp] using hpr
  subst hpos
  have hS := h.drawn
  have hF := h.filled.unpack
  have hf : (s.drawn (p.after (4 * s.ROW.val + s.BLK.val))).PHASE = .fill := by simpa using hp
  obtain ⟨hb, hpg⟩ := State.progress_advance
    (s := (s.drawn (p.after (4 * s.ROW.val + s.BLK.val))).store (p.draw (4 * s.ROW.val + s.BLK.val))) hf
  refine ⟨_, ?_, ⟨?_, hb, ?_, ?_, ?_, ?_⟩⟩
  · rw [step_busy h.turns h.busy]
    simp only [engineStep, hp, fillStep, withDraw_some hS]
    rfl
  · simpa using h.turns
  · rw [hpg]; simp [State.progress, hp]
  · simp; rfl
  · simpa using hF
  · simpa using h.table

theorem Filling.run {p : Prng} {tbl : RankTable} (h : Filling s p 0 tbl) :
    ∀ n ≤ 256, ∃ t, run n s = .next t ∧ Filling t p n tbl
  | 0, _ => ⟨s, rfl, h⟩
  | n + 1, hn => by
    obtain ⟨t, ht, hf⟩ := Filling.run h n (by omega)
    obtain ⟨u, hu, hf'⟩ := hf.step (by omega)
    exact ⟨u, run_succ ht hu, hf'⟩

end Sys2Proof.Machine
end

