-- ==== Sys2Proof/Tests/Slice0.lean ====
section
/-! SUPPORT. The model's own tests. Part 1: expected values from the spec's worked vectors (spec/95_test_vectors.md, named
by their labels) or from the rule named. Part 2: for each statement with hypotheses, a state and operands that meet them. -/

namespace Sys2Proof.Tests

open Sys2Proof Sys2Proof.Machine

/-! ## Part 1 -/

/-! ### WellFormed: an ill-formed term for each check (R81: LEN has 16 bits) -/

theorem test_wf_refuses_long_loadSeed : (Instr.loadSeed 65536).wf = false := by decide
theorem test_wf_refuses_long_genSeeded : (Instr.genSeeded 65568).wf = false := by decide
theorem test_wf_admits_longest_length : (Instr.genSeeded 65535).wf = true := by decide

/-! ### Decoding: a word of each constructor, written out from R81 and R83 (2.6) -/

theorem test_decode_nop : decode 0x0000000000000000 = .command .nop := by decide
theorem test_decode_loadSeed : decode 0x0000000000002001 = .command (.loadSeed 32) := by decide
theorem test_decode_loadSeed_longest : decode 0x0000000000FFFF01 = .command (.loadSeed 65535) := by decide
theorem test_decode_step : decode 0x0000000000000002 = .command .step := by decide
theorem test_decode_genSeeded : decode 0x0000000000002003 = .command (.genSeeded 32) := by decide
theorem test_decode_genContinue : decode 0x0000000000000004 = .command .genContinue := by decide
theorem test_decode_abort : decode 0x000000000000000F = .command .abort := by decide
theorem test_decode_refuses_len_under_step : decode 0x0000000000000102 = .bad .lengthNotZero := by decide
theorem test_decode_refuses_rsv0 : decode 0x0000000000000012 = .bad .reservedBits := by decide
theorem test_decode_refuses_rsv1 : decode 0x0000000010000001 = .bad .reservedBits := by decide
theorem test_decode_refuses_opcode_5 : decode 0x0000000000000005 = .bad .reservedOpcode := by decide
theorem test_decodeTableWord : decodeTableWord 64 0x2003 = some (.genSeeded 32) := by decide

/-! ### The datapath (2.1, 2.2) -/

theorem test_rotl64_23 : rotl64 0x8000000000000001 23 = 0x0000000000C00000 := by decide
theorem test_rotl64_45 : rotl64 0x0123456789ABCDEF 45 = 0x79BDE02468ACF135 := by decide

/-- V-P1, rows 0 and 1. -/
theorem test_xoshiro_first_draw : xoshiro ⟨1, 2, 3, 4⟩ = (0x0000000002800001, ⟨0x7, 0x0, 0x40002, 0xC00000000000⟩) := by
  decide

/-- V-P3 (R106). -/
theorem test_xoshiro_all_ones :
    xoshiro ⟨0xFFFFFFFFFFFFFFFF, 0xFFFFFFFFFFFFFFFF, 0xFFFFFFFFFFFFFFFF, 0xFFFFFFFFFFFFFFFF⟩ =
      (0xFFFFFFFFFF7FFFFE, ⟨0xFFFFFFFFFFFFFFFF, 0xFFFFFFFFFFFFFFFF, 0xFFFFFFFFFFFE0000, 0x0000000000000000⟩) := by
  decide

/-- R100's law on the vector of 2.1. -/
theorem test_rotl64_back : rotl64 0x79BDE02468ACF135 19 = 0x0123456789ABCDEF := by decide

/-! ### One step -/

/-- The outcome is a next state that passes the check. -/
def nextIs (o : Host.Outcome State Fault Refusal) (p : State → Bool) : Bool :=
  match o with
  | .next t => p t
  | .fault _ => false
  | .refused _ => false

/-- Seed bytes 00 01 … 1F, staged (V-S1). -/
def staged : State :=
  { State.reset with
    SEED := #v[0x0706050403020100, 0x0F0E0D0C0B0A0908, 0x1716151413121110, 0x1F1E1D1C1B1A1918] }

/-- S = (1, 2, 3, 4) (V-P1). -/
def seeded : State := { State.reset with S := some ⟨1, 2, 3, 4⟩, SEEDED := true }

/-- A generation from S = (1, 2, 3, 4), before its first micro-step. -/
def filling : State := { seeded with PHASE := .fill }

/-- V-S1. -/
theorem test_loadSeed_packs_little_endian :
    nextIs (step (staged.withFetchWord 64 0x2001)) (fun t =>
      decide (t.S = some ⟨0x0706050403020100, 0x0F0E0D0C0B0A0908, 0x1716151413121110, 0x1F1E1D1C1B1A1918⟩) &&
      decide (t.status = 0x0000000000000002)) = true := by decide

/-- V-S3, the row LEN = 31. -/
theorem test_loadSeed_wrong_length :
    nextIs (step (State.reset.withFetchWord 64 0x1F01)) (fun t => decide (t.status = 0x100) && t.S.isNone) = true := by
  decide

/-- V-P1, row 0. -/
theorem test_step_draws :
    nextIs (step (seeded.withFetchWord 64 0x2)) (fun t =>
      decide (t.OUT = some 0x0000000002800001) && decide (t.S = some ⟨0x7, 0x0, 0x40002, 0xC00000000000⟩)) = true := by
  decide

/-- V-P4. -/
theorem test_step_not_seeded :
    nextIs (step (State.reset.withFetchWord 64 0x2)) (fun t => decide (t.status = 0x200)) = true := by decide

/-- V-G1, at acceptance. -/
theorem test_genSeeded_accepted :
    nextIs (step (staged.withFetchWord 64 0x2003)) (fun t =>
      decide (t.status = 0x3) && decide (t.PHASE = .fill) && decide (t.ATTEMPTS = 0)) = true := by decide

/-- P4: `GEN_SEEDED len=31` while busy reports BUSY, check 2 before check 3. -/
theorem test_genSeeded_busy_before_length :
    nextIs (step (filling.withFetchWord 64 0x1F03)) (fun t => decide (t.status = 0x303)) = true := by decide

/-- V-G3, at acceptance: LAST_RANK still shows 64 and MATRIX_VALID is 0. -/
theorem test_genContinue_accepted :
    nextIs (step (State.withFetchWord
      { seeded with OUT_VALID := true, MATRIX_VALID := true, LAST_RANK := 64, ATTEMPTS := 1 } 64 0x4))
      (fun t => decide (t.status = 0x0000000000400007)) = true := by decide

/-- P3, ABORT before any micro-step. -/
theorem test_abort_busy :
    nextIs (step (filling.withFetchWord 64 0xF)) (fun t => decide (t.status = 0x502)) = true := by decide

/-- V-A1: an idle ABORT leaves ERR = 2. -/
theorem test_abort_idle :
    nextIs (step (State.withFetchWord { State.reset with ERR := .notSeeded } 64 0xF))
      (fun t => decide (t.status = 0x200)) = true := by decide

/-- V-N1. -/
theorem test_nop_while_busy :
    nextIs (step (State.withFetchWord { filling with ERR := .busy } 64 0x0)) (fun t => decide (t.status = 0x303)) = true := by
  decide

/-- P4: a word with RSV0 set, while busy. -/
theorem test_bad_command_while_busy :
    nextIs (step (State.withFetchWord { filling with ERR := .busy } 64 0x10)) (fun t => decide (t.status = 0x403)) = true := by
  decide

/-- R141 on the draw 0x0000000002800001: its nibbles 8, 9 and 15 are 0, 2 and 1; the step is the engine's. -/
theorem test_fill_unpacks_most_significant_first :
    nextIs (step filling) (fun t =>
      decide (t.MAT[0][8] = some 0) && decide (t.MAT[0][9] = some 2) && decide (t.MAT[0][15] = some 1) &&
      decide (t.MAT[0][16] = none) && decide (t.BLK = 1)) = true := by decide

/-- R180: a table answer stands for the rank checker's; here 63, so CHECK retries (R143). -/
theorem test_check_retries_on_63 :
    let a : Mat64 := Vector.replicate 64 (Vector.replicate 64 0)
    let s : State := { filling with
      PHASE := .check, MAT := Vector.replicate 64 (Vector.replicate 64 (some 0)), rankTable := [(a, 63)] }
    ∃ t, checkStep s = .next t ∧ t.PHASE = .fill ∧ t.LAST_RANK = 63 ∧ t.ATTEMPTS = 1 := by
  intro a s
  have h : snapshot s.MAT = some a := (snapshot_eq_some_iff _ _).2 fun r c => by simp [s, a]
  exact ⟨s.judge 63, checkStep_answered h (rankFn_hit _ _ _) (by decide), rfl, rfl, rfl⟩

/-! ### The window (2.8) -/

/-- The read's result is this response. -/
def readsAs (e : Except Fault Response) (r : Response) : Bool :=
  match e with
  | .ok r' => decide (r' = r)
  | .error _ => false

theorem test_read_cmd : readsAs (memRead State.reset 0x000 8) .busErr = true := by decide
theorem test_read_misaligned : readsAs (memRead State.reset 0x00C 8) .busErr = true := by decide
theorem test_read_four_bytes : readsAs (memRead State.reset 0x020 4) .busErr = true := by decide
theorem test_read_reserved : readsAs (memRead State.reset 0x900 8) .busErr = true := by decide
theorem test_read_s_unseeded : readsAs (memRead State.reset 0x040 8) .busErr = true := by decide
theorem test_read_seed1 : readsAs (memRead staged 0x028 8) (.data 0x0F0E0D0C0B0A0908) = true := by decide

/-- R56, R120: seed byte 9 is the byte at offset 0x029. -/
theorem test_window_byte : windowByte staged 0x029 = some 0x09 := by decide

/-- R53 with V-P1: the first block of a matrix reads back as the draw that filled it. -/
theorem test_matrix_word : matrixWord (unpack MatrixStore.unwritten 0 0 0x171513110F151311) 0 = some 0x171513110F151311 := by
  decide

/-! ### Host programs (R87, R88) -/

/-- R87: a missing `len=` means 32; R83: `GEN_SEEDED len=32` is 0x2003. -/
theorem test_generate_without_length :
    Stmt.generate.expand = [.write 0x000 8 0x0000000000002003, .poll 0x008 0x1 0x0] := by decide

/-! ### RefRank on matrices small enough to follow by hand (R183; the paths of V-R1 to V-R5) -/

/-- Identity: direct pivots. -/
theorem test_rank_identity : rankOf (n := 3) #v[#v[1, 0, 0], #v[0, 1, 0], #v[0, 0, 1]] = 3 := by decide +kernel

/-- All zero: shrink every time. -/
theorem test_rank_zero : rankOf (n := 3) #v[#v[0, 0, 0], #v[0, 0, 0], #v[0, 0, 0]] = 0 := by decide +kernel

/-- Every entry 15: one pivot, then shrink. -/
theorem test_rank_all_15 : rankOf (n := 3) #v[#v[15, 15, 15], #v[15, 15, 15], #v[15, 15, 15]] = 1 := by decide +kernel

/-- Anti-identity: a swap at row 0. -/
theorem test_rank_anti_identity : rankOf (n := 3) #v[#v[0, 0, 1], #v[0, 1, 0], #v[1, 0, 0]] = 3 := by decide +kernel

/-- A case where the literal inline factor of the source goes wrong (spec/90_conflicts.md C5): row 2 is row 0 plus row 1. -/
theorem test_rank_dependent_rows : rankOf (n := 3) #v[#v[1, 2, 3], #v[4, 5, 6], #v[5, 7, 9]] = 2 := by decide +kernel

/-! ## Part 2: witnesses -/

/-- A host that has one operation before it. -/
def hostDoes (op : HostOp) (s : State) : State := { s with host := [op], turns := [.host] }

/-- A whole store of zeros in CHECK. -/
def checking : State :=
  { filling with PHASE := .check, MAT := Vector.replicate 64 (Vector.replicate 64 (some 0)) }

/-- The host issues the word. -/
def issues (w : Word) (s : State) : State := hostDoes (.write 0x000 8 w) s

theorem host_now (op : HostOp) (s : State) : hostNow (hostDoes op s) op := ⟨rfl, rfl⟩

theorem command_now {w : Word} {i : Instr} (h : decode w = .command i) (s : State) : commandNow (issues w s) i :=
  ⟨w, h, host_now _ s⟩

theorem bad_command_now {w : Word} {b : Bad} (h : decode w = .bad b) (s : State) : badCommandNow (issues w s) :=
  ⟨w, b, h, host_now _ s⟩

theorem witness_DecodeOfEncodeIsTheCommand : (Instr.loadSeed 65535).wf = true ∧ Instr.nop.wf = true := by decide

theorem witness_EncodeOfDecodeIsTheWord : decode 0x0000000000FFFF01 = .command (.loadSeed 65535) := by decide

/-- One word for each clause, at the ends of the ranges. -/
theorem witness_DecodeFollowsTheOpcodeMap :
    (0x10 : Word).toNat / 2 ^ 4 % 2 ^ 4 ≠ 0 ∧ (0x1000000 : Word).toNat / 2 ^ 24 ≠ 0 ∧
    (∀ w ∈ ([0x0, 0x100, 0x1, 0x2, 0x102, 0x3] : List Word), w.toNat / 2 ^ 4 % 2 ^ 4 = 0 ∧ w.toNat / 2 ^ 24 = 0) ∧
    (∀ w ∈ ([0x4, 0x104, 0xF, 0x10F, 0x5, 0xE] : List Word), w.toNat / 2 ^ 4 % 2 ^ 4 = 0 ∧ w.toNat / 2 ^ 24 = 0) ∧
    (∃ r ∈ opcodeTable, r.hits 0x0 = true) := by
  refine ⟨by decide, by decide, ?_, ?_, ⟨⟨"NOP", 0, 0xFFFFFFFFFFFFFFFF⟩, ?_, by decide⟩⟩
  · simp
  · simp
  · simp [opcodeTable]

theorem witness_ReservedWordsOnlySetBadCommand :
    (0x5 ≤ (0x5 : Word).toNat % 2 ^ 4 ∧ (0xE : Word).toNat % 2 ^ 4 ≤ 0xE) ∧ (0xF0 : Word).toNat / 2 ^ 4 % 2 ^ 4 ≠ 0 ∧
    (0x8000000000000000 : Word).toNat / 2 ^ 24 ≠ 0 ∧
    (∀ w ∈ ([0x100, 0xFFFF02, 0x104, 0x10F] : List Word),
      w.toNat / 2 ^ 8 % 2 ^ 16 ≠ 0 ∧ w.toNat % 2 ^ 4 ∈ [0x0, 0x2, 0x4, 0xF]) := by simp

theorem witness_StepRunsTheDecodedCommand :
    nextAgent (issues 0x2 seeded) = .host ∧ (issues 0x2 seeded).host = [.write 0x000 8 0x2] ∧
    decode 0x2 = .command .step := ⟨rfl, rfl, by decide⟩

/-- One state for each clause. -/
theorem witness_StepIsTheChosenAgents :
    (({ filling with turns := [.engine] } : State).turns = [.engine]) ∧
    ((hostDoes .reset filling).turns = [.host] ∧ (hostDoes .reset filling).host = [.reset]) ∧
    (({ filling with turns := [.host] } : State).host = []) ∧
    (filling.turns = [] ∧ filling.PHASE ≠ .idle) ∧
    (({ seeded with host := [.reset] } : State).turns = [] ∧ seeded.PHASE = .idle) ∧ seeded.host = [] :=
  ⟨rfl, ⟨rfl, rfl⟩, rfl, ⟨rfl, by decide⟩, ⟨rfl, rfl⟩, rfl⟩

theorem witness_NopChangesNothing : (0x100 : Word).toNat % 2 ^ 4 = 0 ∧ (0x100 : Word) ≠ 0 := by decide

theorem witness_AbortStopsTheGeneration :
    State.reset.PHASE = .idle ∧ filling.PHASE ≠ .idle ∧
    (0x10F : Word).toNat % 2 ^ 4 = 0xF ∧ (0x10F : Word) ≠ 0x000000000000000F := by decide

theorem witness_LoadSeedLoadsTheStagedSeed : staged.PHASE = .idle ∧ (31 ≠ 32 ∧ 33 ≠ 32) ∧ filling.PHASE ≠ .idle := by decide

theorem witness_StepDrawsOnce :
    (seeded.PHASE = .idle ∧ seeded.SEEDED = true ∧ seeded.S = some ⟨1, 2, 3, 4⟩) ∧
    (State.reset.PHASE = .idle ∧ State.reset.SEEDED = false) ∧ filling.PHASE ≠ .idle := by decide

theorem witness_GenSeededStartsAGeneration : staged.PHASE = .idle ∧ (0 ≠ 32) ∧ filling.PHASE ≠ .idle := by decide

theorem witness_GenContinueStartsAGeneration :
    (seeded.PHASE = .idle ∧ seeded.SEEDED = true) ∧ (State.reset.PHASE = .idle ∧ State.reset.SEEDED = false) ∧
    filling.PHASE ≠ .idle := by decide

theorem witness_EveryCommandCompletes : seeded.SEEDED = true ∧ seeded.S ≠ none := by decide

theorem witness_BusyRejectsDataCommandsAndReads : filling.PHASE ≠ .idle ∧ checking.PHASE ≠ .idle := by decide

/-- Each of the three places the sequencer can go on to. -/
theorem witness_FillStoresTheDraw :
    (filling.PHASE = .fill ∧ filling.S = some ⟨1, 2, 3, 4⟩ ∧ filling.BLK.val < 3) ∧
    (({ filling with BLK := 3, ROW := 62 } : State).BLK.val = 3 ∧ ({ filling with ROW := 62 } : State).ROW.val < 63) ∧
    (({ filling with BLK := 3, ROW := 63 } : State).BLK.val = 3 ∧ ({ filling with ROW := 63 } : State).ROW.val = 63) := by
  decide

theorem witness_AttemptFillsTheMatrix :
    filling.PHASE = .fill ∧ filling.ROW = 0 ∧ filling.BLK = 0 ∧ filling.S = some ⟨1, 2, 3, 4⟩ := by decide

/-- A matrix with rank answers 64, 63 and 65 for it: the three clauses. -/
theorem witness_CheckJudgesTheRank :
    let a : Mat64 := Vector.replicate 64 (Vector.replicate 64 0)
    checking.PHASE = .check ∧ (∀ i j : Fin 64, checking.MAT[i.val][j.val] = some (a[i.val][j.val])) ∧
    rankFn [(a, 64)] a = 64 ∧ (rankFn [(a, 63)] a).toNat < 64 ∧ 64 < (rankFn [(a, 65)] a).toNat := by
  refine ⟨rfl, fun i j => by simp [checking], ?_, ?_, ?_⟩ <;> simp only [rankFn_hit] <;> decide

theorem witness_UnwrittenReadsFault :
    let s : State := { State.reset with SEEDED := true, OUT_VALID := true, MATRIX_VALID := true }
    (s.PHASE = .idle ∧ s.SEEDED = true ∧ s.S = none ∧ s.OUT_VALID = true ∧ s.OUT = none ∧ s.MATRIX_VALID = true) ∧
    (∀ i : Fin 64, ∀ b : Fin 4, ∀ k : Fin 16, s.MAT[i.val][16 * b.val + k.val] = none) ∧
    (({ s with PHASE := .fill } : State).PHASE = .fill ∧ ({ s with PHASE := .check } : State).PHASE = .check) := by
  refine ⟨by decide, fun i b k => by simp [State.reset, MatrixStore.unwritten], rfl, rfl⟩

/-- For the statements about every step: a step that ends in a next state, for each kind of step that a clause names. -/
theorem witness_steps :
    (engineNow filling ∧ ∃ t, step filling = .next t) ∧
    (nextAgent State.reset = .host ∧ State.reset.host = [] ∧ ∃ t, step State.reset = .next t) ∧
    (hostNow (hostDoes (.read 0xFF8 8) filling) (.read 0xFF8 8) ∧ ∃ t, step (hostDoes (.read 0xFF8 8) filling) = .next t) ∧
    (hostNow (hostDoes (.poll 0x008 1 0) filling) (.poll 0x008 1 0) ∧
      ∃ t, step (hostDoes (.poll 0x008 1 0) filling) = .next t) ∧
    (hostNow (hostDoes (.write 0x038 8 5) filling) (.write (BitVec.ofNat 12 (0x020 + 8 * (3 : Fin 4).val)) 8 5) ∧
      ∃ t, step (hostDoes (.write 0x038 8 5) filling) = .next t) ∧
    (hostNow (hostDoes .reset filling) .reset ∧ ∃ t, step (hostDoes .reset filling) = .next t) ∧
    (badCommandNow (issues 0x5 filling) ∧ ∃ t, step (issues 0x5 filling) = .next t) ∧
    (commandNow (issues 0x0 filling) .nop ∧ ∃ t, step (issues 0x0 filling) = .next t) ∧
    (commandNow (issues 0xF filling) .abort ∧ ∃ t, step (issues 0xF filling) = .next t) ∧
    (commandNow (issues 0x2001 seeded) (.loadSeed 32) ∧ ∃ t, step (issues 0x2001 seeded) = .next t) ∧
    (commandNow (issues 0x2003 seeded) (.genSeeded 32) ∧ ∃ t, step (issues 0x2003 seeded) = .next t) ∧
    (commandNow (issues 0x2 seeded) .step ∧ ∃ t, step (issues 0x2 seeded) = .next t) ∧
    (commandNow (issues 0x4 seeded) .genContinue ∧ ∃ t, step (issues 0x4 seeded) = .next t) :=
  ⟨⟨rfl, _, rfl⟩, ⟨rfl, rfl, _, rfl⟩, ⟨host_now _ _, _, rfl⟩, ⟨host_now _ _, _, rfl⟩, ⟨host_now _ _, _, rfl⟩,
   ⟨host_now _ _, _, rfl⟩, ⟨bad_command_now (b := .reservedOpcode) (by decide) _, _, rfl⟩,
   ⟨command_now (by decide) _, _, rfl⟩, ⟨command_now (by decide) _, _, rfl⟩, ⟨command_now (by decide) _, _, rfl⟩,
   ⟨command_now (by decide) _, _, rfl⟩, ⟨command_now (by decide) _, _, rfl⟩, ⟨command_now (by decide) _, _, rfl⟩⟩

/-- R144 with V-G3: the attempt after the first one's draws is another matrix; entry (0, 0) is 9 and not 0. -/
theorem second_attempt_differs : attemptMatrix ⟨1, 2, 3, 4⟩ ≠ attemptMatrix (Prng.after ⟨1, 2, 3, 4⟩ 256) := by
  intro h
  have h₀ := attemptMatrix_entry ⟨1, 2, 3, 4⟩ 0 0
  rw [h, attemptMatrix_entry] at h₀
  revert h₀
  decide +kernel

/-- One deficient attempt, then one of full rank. -/
theorem witness_GenerationEndsWithTheAcceptedAttempt :
    let p : Prng := ⟨1, 2, 3, 4⟩
    let s : State := { filling with rankTable := [(attemptMatrix p, 63), (attemptMatrix (p.after 256), 64)] }
    s.PHASE = .fill ∧ s.ROW = 0 ∧ s.BLK = 0 ∧ s.S = some p ∧
    (∀ a < 1, (rankFn s.rankTable (attemptMatrix (p.after (256 * a)))).toNat < 64) ∧
    rankFn s.rankTable (attemptMatrix (p.after (256 * 1))) = 64 := by
  intro p s
  refine ⟨rfl, rfl, rfl, rfl, fun a ha => ?_, ?_⟩
  · obtain rfl : a = 0 := by omega
    have : rankFn s.rankTable (attemptMatrix p) = 63 := rankFn_hit _ _ _
    exact lt_of_eq_of_lt (congrArg BitVec.toNat this) (by decide)
  · exact (rankFn_miss _ _ second_attempt_differs).trans (rankFn_hit _ _ _)

/-- The host reads while the engine takes one step, and then another. -/
theorem witness_InterleavingLeavesTheGenerationAlone :
    let s : State := { filling with host := [.read 0x008 8] }
    s.PHASE ≠ .idle ∧
    (∀ op ∈ s.host, op ≠ .reset ∧ ∀ v, op = .write 0x000 8 v → decode v ≠ .command .abort) ∧
    (∃ u, run ([Agent.host, .engine].count .engine)
      { s with turns := List.replicate ([Agent.host, .engine].count .engine) .engine } = .next u ∧ u.PHASE ≠ .idle) ∧
    (∃ v, run ([Agent.host, .engine].count .engine + 1)
      { s with turns := List.replicate ([Agent.host, .engine].count .engine + 1) .engine } = .next v) := by
  refine ⟨by decide, ?_, ⟨_, rfl, by decide⟩, ⟨_, rfl⟩⟩
  simp

theorem witness_AllZeroGenerationNeverCompletes :
    let s : State := { filling with S := some ⟨0, 0, 0, 0⟩ }
    s.PHASE = .fill ∧ s.ROW = 0 ∧ s.BLK = 0 ∧ s.S = some ⟨0, 0, 0, 0⟩ ∧ s.rankTable.Exact :=
  ⟨rfl, rfl, rfl, rfl, fun _ => rfl⟩

theorem witness_RotationHasItsInverse : (1 ≤ 1 ∧ 1 ≤ 63) ∧ 1 ≤ 63 ∧ 63 ≤ 63 := by decide

/-- Aligned offsets at the ends of each reserved range, and of a register. -/
theorem witness_RegisterMapIsOneToOne :
    ∀ off ∈ ([0x000, 0x018, 0x058, 0x060, 0x0F8, 0x100, 0x8F8, 0x900, 0xFF8] : List Offset), off.toNat % 8 = 0 := by simp

/-- A state and offsets for each guarded clause: the guard passing, and failing either way. -/
theorem witness_MemReadFollowsTheMap :
    let s : State := { seeded with OUT := some 7, OUT_VALID := true, MATRIX_VALID := true, MAT := checking.MAT }
    (s.PHASE = .idle ∧ s.OUT_VALID = true ∧ s.OUT = some 7 ∧ s.SEEDED = true ∧ s.S = some ⟨1, 2, 3, 4⟩ ∧
      s.MATRIX_VALID = true ∧ matrixWord s.MAT 255 = some 0) ∧
    (filling.PHASE ≠ .idle ∧ State.reset.OUT_VALID = false ∧ State.reset.SEEDED = false ∧
      State.reset.MATRIX_VALID = false) ∧
    ((0x004 : Offset).toNat % 8 ≠ 0 ∧ (0x060 : Offset).toNat = 0x060 ∧ (0x0F8 : Offset).toNat ≤ 0x0F8 ∧
      0x900 ≤ (0x900 : Offset).toNat) := by decide

theorem witness_MemWriteFollowsTheMap :
    (4 ≠ 8 ∧ (0x024 : Offset).toNat % 8 ≠ 0) ∧ ((0x008 : Offset).toNat ≠ 0 ∧ (0x018 : Offset).toNat < 0x020) ∧
    0x040 ≤ (0x040 : Offset).toNat ∧ ∃ t, engineStep filling = .next t :=
  ⟨by decide, by decide, by decide, _, rfl⟩

/-- A read and a write at each end of each range, and a write that ends in BUSERR. -/
theorem witness_BusErrorHasItsCausesOnly :
    memRead filling 0x060 8 = .ok .busErr ∧ memRead filling 0xFF8 8 = .ok .busErr ∧
    (∃ v, memRead filling 0x038 8 = .ok (.data v)) ∧
    ∃ t, memWrite filling 0x018 8 1 = .next t ∧ t.log = .busErr :: filling.log :=
  ⟨rfl, rfl, ⟨_, rfl⟩, _, rfl, rfl⟩

/-- A write that ends in BUSERR, and the step that makes it. -/
theorem witness_ReadsAndBusErrorsChangeNothing :
    hostNow (hostDoes (.write 0x008 8 1) filling) (.write 0x008 8 1) ∧
    ∃ t, step (hostDoes (.write 0x008 8 1) filling) = .next t ∧ t.log.head? = some .busErr :=
  ⟨host_now _ _, _, rfl, rfl⟩

/-- A POLL that ends, one that does not, and a read. -/
theorem witness_HostOperationsRunInOrder :
    (nextAgent (hostDoes (.poll 0x008 1 0) seeded) = .host ∧
      ∃ t, step (hostDoes (.poll 0x008 1 0) seeded) = .next t ∧ t.host = []) ∧
    (∃ t, step (hostDoes (.poll 0x008 1 0) filling) = .next t ∧ t.host = [.poll 0x008 1 0]) ∧
    (∃ t, step (hostDoes (.read 0x008 8) filling) = .next t ∧ t.log = [.data 0x3]) :=
  ⟨⟨rfl, _, rfl, rfl⟩, ⟨_, rfl, rfl⟩, ⟨_, rfl, rfl⟩⟩

theorem witness_MatrixWordIsItsDraw : (255 : Fin 256).val = 4 * (63 : Fin 64).val + (3 : Fin 4).val := by decide

theorem witness_WindowBytesAreLittleEndian :
    (0x028 : Offset).toNat % 8 = 0 ∧ 7 < 8 ∧ readsAs (memRead staged 0x028 8) (.data 0x0F0E0D0C0B0A0908) = true := by decide

theorem witness_SeedBytesLoadLittleEndian :
    let b : Vector Byte 32 := Vector.replicate 32 0xA5
    let s : State := { State.reset with
      host := (Stmt.seedb b).expand ++ Stmt.loadSeed.expand ++ [.reset], turns := List.replicate 5 .host ++ [.engine] }
    s.PHASE = .idle ∧ s.host = (Stmt.seedb b).expand ++ Stmt.loadSeed.expand ++ [.reset] ∧
    s.turns = List.replicate 5 .host ++ [.engine] := ⟨rfl, rfl, rfl⟩

theorem witness_ResetRestoresXmgFromAnyState : hostNow (hostDoes .reset filling) .reset := host_now _ _

theorem witness_Initial :
    Initial { State.reset with host := [.reset], turns := [.host, .engine], rankTable := [(checking.MAT.map fun r => r.map fun _ => 0, 65)] } :=
  ⟨_, _, _, rfl⟩

/-- The invariant's premise, at reset and in a running generation. -/
theorem witness_EveryStepKeepsTheInvariant :
    (Inv State.reset ∧ ∃ t, step State.reset = .next t) ∧ (Inv filling ∧ ∃ t, step filling = .next t) := by
  refine ⟨⟨?_, _, rfl⟩, ⟨?_, _, rfl⟩⟩
  · constructor <;> simp [State.reset]
  · constructor <;> simp [filling, seeded, State.reset]
    exact ⟨⟨1, 2, 3, 4⟩, rfl, fun i j h => absurd h (Nat.not_lt_zero _)⟩

/-- A host that, right after reset, generates from the staged seed (all zero), and a rank checker that accepts that
attempt. -/
def generating : State :=
  { State.reset with host := [.write 0x000 8 0x2003], rankTable := [(attemptMatrix ⟨0, 0, 0, 0⟩, 64)] }

theorem generating_initial : Initial generating := ⟨_, _, _, rfl⟩

theorem generating_legal : generating.rankTable.Legal := by
  intro e he
  cases List.mem_singleton.1 he
  decide

/-- One host step, 256 FILL and one CHECK. -/
theorem generating_completes : ∃ t, run 258 generating = .next t ∧ t.MATRIX_VALID = true := by
  obtain ⟨s, hs, h0⟩ : ∃ s, step generating = .next s ∧ Filling s ⟨0, 0, 0, 0⟩ 0 generating.rankTable :=
    ⟨_, rfl, rfl, by decide, rfl, rfl, fun i j h => absurd h (Nat.not_lt_zero _), rfl⟩
  obtain ⟨t, ht, hf⟩ := h0.run 256 (le_refl _)
  have hp : t.PHASE = .check := by
    have hb := hf.busy
    have hpr := hf.progress
    cases hp : t.PHASE with
    | idle => exact absurd hp hb
    | fill => simp only [State.progress, hp] at hpr; omega
    | check => rfl
  have hr : rankFn t.rankTable (attemptMatrix ⟨0, 0, 0, 0⟩) = 64 := by rw [hf.table]; exact rankFn_hit _ _ _
  have hc : step t = .next (t.judge 64) := by
    rw [step_busy hf.turns hf.busy]
    simp only [engineStep, hp]
    exact checkStep_answered hf.filled.snapshot hr (by decide)
  refine ⟨t.judge 64, ?_, rfl⟩
  show run (257 + 1) generating = _
  rw [run, hs]
  exact run_succ ht hc

theorem witness_RunsFromResetNeverStop :
    ∃ t, Initial generating ∧ Reaches generating t ∧ generating.rankTable.Legal ∧ t.MATRIX_VALID = true := by
  obtain ⟨t, ht, hm⟩ := generating_completes
  exact ⟨t, generating_initial, ⟨258, ht⟩, generating_legal, hm⟩

theorem witness_ExposedMatrixIsAnAcceptedAttempt :
    ∃ t, Initial generating ∧ Reaches generating t ∧ t.MATRIX_VALID = true := by
  obtain ⟨t, ht, hm⟩ := generating_completes
  exact ⟨t, generating_initial, ⟨258, ht⟩, hm⟩

theorem witness_InvariantStatesGoOn : Inv filling ∧ filling.rankTable.Legal :=
  ⟨witness_EveryStepKeepsTheInvariant.2.1, fun e he => by cases he⟩

/-- An idle state that holds the all-zero attempt, which the rank checker accepts. -/
theorem witness_InvariantStatesExposeAnAcceptedAttempt :
    let s : State := { seeded with
      MATRIX_VALID := true, MAT := (attemptMatrix ⟨0, 0, 0, 0⟩).map fun r => r.map some,
      rankTable := generating.rankTable }
    Inv s ∧ s.MATRIX_VALID = true := by
  refine ⟨?_, rfl⟩
  constructor <;> simp [seeded, State.reset]
  exact ⟨⟨0, 0, 0, 0⟩, fun i j _ => by simp, rankFn_hit _ _ _⟩

/-- A host step and an engine step of a running generation. -/
theorem witness_EveryStepKeepsTheSharedGeneration :
    (SameGenerator filling (hostDoes (.read 0x008 8) filling) ∧ filling.PHASE ≠ .idle ∧
      hostNow (hostDoes (.read 0x008 8) filling) (.read 0x008 8)) ∧
    (SameGenerator filling filling ∧ engineNow filling ∧ ∃ u', engineStep filling = .next u') :=
  ⟨⟨by constructor <;> rfl, by decide, host_now _ _⟩, SameGenerator.refl _, rfl, _, rfl⟩

/-- The engine's first step, which is neither ABORT nor reset. -/
theorem witness_EveryStepKeepsTheZeroGeneration :
    let s : State := { filling with S := some ⟨0, 0, 0, 0⟩ }
    ZeroGeneration s ∧ ¬ hostNow s .reset ∧ ¬ commandNow s .abort := by
  refine ⟨⟨by decide, rfl, fun h => (by cases h), fun i j h => absurd h (Nat.not_lt_zero _), fun _ => rfl⟩, ?_, ?_⟩
  · exact fun h => by cases h.1
  · rintro ⟨_, _, h⟩
    cases h.1

end Sys2Proof.Tests
end

/-! ## The order of steps (spec/00_scope.md R16; spec/20_memory.md R62)

Whose step is next, the state it acts on, and what each agent does with it: one equation per case. -/

namespace Sys2Proof.Machine

variable {s : State}

/-! ### Whose step it is -/

theorem nextAgent_of_turns {a : Agent} {ts : List Agent} (h : s.turns = a :: ts) : nextAgent s = a := by
  simp [nextAgent, h]

theorem nextAgent_of_idle (ht : s.turns = []) (hp : s.PHASE = .idle) : nextAgent s = .host := by
  simp [nextAgent, ht, (State.busy_eq_false_iff s).2 hp]

/-! ### The state the step acts on -/

theorem State.takeTurn_of_turns {a : Agent} {ts : List Agent} (h : s.turns = a :: ts) :
    s.takeTurn = { s with turns := ts } := by
  simp [State.takeTurn, h]

theorem State.takeTurn_of_no_turns (h : s.turns = []) : s.takeTurn = s := by
  rw [State.takeTurn, h, List.tail_nil, ← h]

/-! ### What the agent does -/

theorem step_of_host_next (h : nextAgent s = .host) : step s = hostStep s.takeTurn := by
  rw [step, h, agentStep]

theorem step_of_engine_next (h : nextAgent s = .engine) : step s = engineStep s.takeTurn := by
  rw [step, h, agentStep]

theorem hostStep_of_host {op : HostOp} {rest : List HostOp} (h : s.host = op :: rest) : hostStep s = hostOp s op := by
  simp [hostStep, h]

theorem hostStep_of_no_host (h : s.host = []) : hostStep s = .next s := by
  simp [hostStep, h]

theorem engineStep_of_idle (h : s.PHASE = .idle) : engineStep s = .next s := by
  simp [engineStep, h]

/-! ### The step, by the order that is left -/

theorem step_of_engine_turn {ts : List Agent} (h : s.turns = .engine :: ts) :
    step s = engineStep { s with turns := ts } := by
  rw [step_of_engine_next (nextAgent_of_turns h), State.takeTurn_of_turns h]

theorem step_of_host_turn {ts : List Agent} (h : s.turns = .host :: ts) :
    step s = hostStep { s with turns := ts } := by
  rw [step_of_host_next (nextAgent_of_turns h), State.takeTurn_of_turns h]

/-- With no step ordered, the step of an idle XMG is the host's; `step_busy` says whose it is while busy. -/
theorem step_idle (ht : s.turns = []) (hp : s.PHASE = .idle) : step s = hostStep s := by
  rw [step_of_host_next (nextAgent_of_idle ht hp), State.takeTurn_of_no_turns ht]

end Sys2Proof.Machine

namespace Sys2Proof.Proofs

open Sys2Proof.Machine

/-- Settles O8, by the head of `turns`, and by PHASE where no turn is left. -/
theorem stepIsTheChosenAgents : Obligations.StepIsTheChosenAgents := by
  intro s
  refine ⟨?engineTurn, ?hostTurn, ?hostTurnNoOp, ?noTurnBusy, ?noTurnIdle, ?noTurnIdleNoOp, ?engineIdle⟩
  case engineTurn => exact fun _ ht => step_of_engine_turn ht
  case hostTurn =>
    intro ts op rest ht hh
    rw [step_of_host_turn ht]
    exact hostStep_of_host hh
  case hostTurnNoOp =>
    intro ts ht hh
    rw [step_of_host_turn ht]
    exact hostStep_of_no_host hh
  case noTurnBusy => exact step_busy
  case noTurnIdle =>
    intro op rest ht hp hh
    rw [step_idle ht hp, hostStep_of_host hh]
  case noTurnIdleNoOp =>
    intro ht hp hh
    rw [step_idle ht hp, hostStep_of_no_host hh]
  case engineIdle => exact engineStep_of_idle

end Sys2Proof.Proofs

/-! ## What a step does to XMG (spec/10_state.md R20 to R33)

`Effect` says once, for a whole step, which state it can leave; every statement about who writes what, and the invariant,
is read off it. -/

namespace Sys2Proof.Machine

variable {s t : State}

/-! ### An operation is one operation of one agent -/

theorem engineStep_of_fill (h : s.PHASE = .fill) : engineStep s = fillStep s := by
  simp [engineStep, h]

theorem engineStep_of_check (h : s.PHASE = .check) : engineStep s = checkStep s := by
  simp [engineStep, h]

theorem step_of_hostNow {op : HostOp} (h : hostNow s op) : step s = hostOp s.takeTurn op := by
  obtain ⟨ha, hop⟩ := h
  obtain ⟨rest, hr⟩ := List.head?_eq_some_iff.1 hop
  exact (step_of_host_next ha).trans (hostStep_of_host hr)

theorem reset_next (hop : hostNow s .reset) (h : step s = .next t) : t = s.takeTurn.popHost.resetDevice := by
  rw [step_of_hostNow hop] at h
  cases h
  rfl

theorem engineNow.not_hostNow {op : HostOp} (h : engineNow s) : ¬ hostNow s op := fun h' => h'.not_engineNow h

theorem commandNow.not_reset {i : Instr} : commandNow s i → ¬ hostNow s .reset := by
  rintro ⟨w, -, hw⟩ hr
  cases hostNow_unique hw hr

theorem not_reset_of_no_host (h : s.host = []) : ¬ hostNow s .reset := by
  rintro ⟨-, hop⟩
  simp [h] at hop

/-! ### The step, seen from XMG -/

/-- What a step from `s` can leave: the generator as it was, an engine micro-step, an accepted command, or reset. -/
inductive Effect (s : State) : State → Prop
  | quiet {t : State} (hreset : ¬ hostNow s .reset) (same : SameGenerator s t) : Effect s t
  | fill {p : Prng} (now : engineNow s) (phase : s.PHASE = .fill) (hS : s.S = some p) :
      Effect s ((s.takeTurn.drawn p).store p.out).advance
  | check {a : Mat64} (now : engineNow s) (phase : s.PHASE = .check) (hMAT : snapshot s.MAT = some a)
      (legal : (rankFn s.rankTable a).toNat ≤ 64) : Effect s (s.takeTurn.judge (rankFn s.rankTable a))
  | abort (now : commandNow s .abort) (phase : s.PHASE ≠ .idle) :
      Effect s ((s.accessed .done).stopGeneration.setErr .aborted)
  | loadSeed (now : commandNow s (.loadSeed 32)) (phase : s.PHASE = .idle) :
      Effect s ((s.accessed .done).seedLoad.setErr .none)
  | step {p : Prng} (now : commandNow s .step) (phase : s.PHASE = .idle) (seeded : s.SEEDED = true)
      (hS : s.S = some p) : Effect s (((s.accessed .done).drawn p).setErr .none)
  | genSeeded (now : commandNow s (.genSeeded 32)) (phase : s.PHASE = .idle) :
      Effect s ((s.accessed .done).seedLoad.startGeneration.setErr .none)
  | genContinue (now : commandNow s .genContinue) (phase : s.PHASE = .idle) (seeded : s.SEEDED = true) :
      Effect s ((s.accessed .done).startGeneration.setErr .none)
  | reset (now : hostNow s .reset) : Effect s s.takeTurn.popHost.resetDevice

theorem engineStep_effect (hnow : engineNow s) (h : engineStep s.takeTurn = .next t) : Effect s t := by
  obtain ⟨-, rfl⟩ | ⟨p, hp, hS, rfl⟩ | ⟨a, hp, hM, hl, rfl⟩ := engineStep_next h
  · exact .quiet hnow.not_hostNow (.takeTurn s)
  · exact .fill hnow hp hS
  · exact .check hnow hp hM hl

theorem exec_effect {i : Instr} (hnow : commandNow s i) (h : exec i (s.accessed .done) = .next t) : Effect s t := by
  rcases exec_next h with rfl | ⟨e, rfl⟩ | ⟨rfl, hp, rfl⟩ | ⟨rfl, hp, rfl⟩ | ⟨p, rfl, hp, hd, hS, rfl⟩ | ⟨rfl, hp, rfl⟩ |
    ⟨rfl, hp, hd, rfl⟩
  · exact .quiet hnow.not_reset (.accessed s _)
  · exact .quiet hnow.not_reset ((SameGenerator.accessed s _).trans (.fail _ e))
  · exact .abort hnow hp
  · exact .loadSeed hnow hp
  · exact .step hnow hp hd hS
  · exact .genSeeded hnow hp
  · exact .genContinue hnow hp hd

theorem hostNow.effect_of_same {op : HostOp} (h : hostNow s op) (hop : op ≠ .reset) (hs : SameGenerator s t) :
    Effect s t :=
  .quiet (fun hr => hop (hostNow_unique h hr)) hs

theorem SameGenerator.polled (s : State) (g : Bool) (r : Response) :
    SameGenerator s (if g then s.accessed r else s.takeTurn.record r) := by
  cases g <;> constructor <;> rfl

/-- R62: whatever a step does, it is one of these effects. -/
theorem step_effect (h : step s = .next t) : Effect s t := by
  rcases step_next h with ⟨hnow, he⟩ | ⟨-, hh, rfl⟩ | ⟨off, size, r, hop, -, rfl⟩ | ⟨off, mask, v, r, hop, -, rfl⟩ |
    ⟨v, i, hop, hd, he⟩ | ⟨v, why, hop, -, rfl⟩ | ⟨w, v, hop, rfl⟩ | ⟨off, size, v, hop, rfl⟩ | ⟨hop, rfl⟩
  · exact engineStep_effect hnow he
  · exact .quiet (not_reset_of_no_host hh) (.takeTurn s)
  · exact hop.effect_of_same nofun (.accessed s r)
  · exact hop.effect_of_same nofun (.polled s _ r)
  · exact exec_effect ⟨v, hd, hop⟩ he
  · exact hop.effect_of_same nofun ((SameGenerator.accessed s _).trans (.fail _ _))
  · exact hop.effect_of_same nofun ((SameGenerator.accessed s _).trans (.setSeed _ w v))
  · exact hop.effect_of_same nofun (.accessed s _)
  · exact .reset hop

theorem Effect.rankTable_eq (h : Effect s t) : t.rankTable = s.rankTable := by
  cases h with
  | quiet _ same => exact same.rankTable
  | _ => simp

end Sys2Proof.Machine

/-! ## The invariant (spec/10_state.md R34, R36) -/

namespace Sys2Proof.Machine

variable {s t : State}

theorem FilledFrom.zero (m : MatrixStore) (p : Prng) : FilledFrom m p 0 := fun _ _ h => absurd h (Nat.not_lt_zero _)

theorem State.progress_of_fill (h : s.PHASE = .fill) : s.progress = 4 * s.ROW.val + s.BLK.val := by
  simp [State.progress, h]

theorem State.progress_of_check (h : s.PHASE = .check) : s.progress = 256 := by
  simp [State.progress, h]

theorem SameGenerator.progress_eq (h : SameGenerator s t) : t.progress = s.progress := by
  simp only [State.progress, h.PHASE, h.ROW, h.BLK]

/-- The invariant speaks of the generator alone. -/
theorem Inv.of_same (hs : SameGenerator s t) (h : Inv s) : Inv t where
  busy_seeded := by simpa only [hs.PHASE, hs.SEEDED, hs.MATRIX_VALID] using h.busy_seeded
  check_home := by simpa only [hs.PHASE, hs.ROW, hs.BLK] using h.check_home
  attempt := by simpa only [hs.PHASE, hs.S, hs.MAT, hs.progress_eq] using h.attempt
  accepted := by simpa only [hs.MATRIX_VALID, hs.MAT, hs.rankTable] using h.accepted
  valid_seeded := by simpa only [hs.MATRIX_VALID, hs.SEEDED] using h.valid_seeded
  out_seeded := by simpa only [hs.OUT_VALID, hs.SEEDED] using h.out_seeded
  seeded_written := by simpa only [hs.SEEDED, hs.S] using h.seeded_written
  out_written := by simpa only [hs.OUT_VALID, hs.OUT] using h.out_written
  rank_legal := by simpa only [hs.LAST_RANK] using h.rank_legal

theorem State.advance_home (hp : s.PHASE = .fill) (h : s.advance.PHASE = .check) :
    s.advance.ROW = 0 ∧ s.advance.BLK = 0 := by
  rcases s.advance_cases with ⟨-, he⟩ | ⟨-, -, he⟩ | ⟨-, -, he⟩ <;> rw [he] at h ⊢
  · cases hp.symm.trans h
  · cases hp.symm.trans h
  · exact ⟨rfl, rfl⟩

/-- R142: FILL puts the attempt's next draw in its place. -/
theorem Inv.fill {p : Prng} (h : Inv s) (hp : s.PHASE = .fill) (hS : s.S = some p) :
    Inv ((s.drawn p).store p.out).advance := by
  have hb : s.PHASE ≠ .idle := by simp [hp]
  obtain ⟨hseeded, hvalid⟩ := h.busy_seeded hb
  have hpf : ((s.drawn p).store p.out).PHASE = .fill := hp
  obtain ⟨hbusy, hprog⟩ := State.progress_advance hpf
  have hpos : ((s.drawn p).store p.out).progress = 4 * s.ROW.val + s.BLK.val := State.progress_of_fill hpf
  constructor
  case busy_seeded => simp [hseeded, hvalid]
  case check_home => exact State.advance_home hpf
  case attempt =>
    obtain ⟨q, hq, hF⟩ := h.attempt hb
    rw [State.progress_of_fill hp] at hq hF
    obtain rfl : p = q.after (4 * s.ROW.val + s.BLK.val) := Option.some.inj (hS.symm.trans hq)
    intro _
    rw [hprog, hpos]
    exact ⟨q, by simp [Prng.after], by rw [State.advance_MAT]; exact hF.unpack⟩
  case accepted => simp [hvalid]
  case valid_seeded => simp [hseeded]
  case out_seeded => simp [hseeded]
  case seeded_written => simp [hseeded]
  case out_written => simp
  case rank_legal => simpa using h.rank_legal

/-- R143: CHECK exposes the attempt that the rank port accepts, or begins the next one. -/
theorem Inv.check {a : Mat64} (h : Inv s) (hp : s.PHASE = .check) (hM : snapshot s.MAT = some a)
    (hl : (rankFn s.rankTable a).toNat ≤ 64) : Inv (s.judge (rankFn s.rankTable a)) := by
  have hb : s.PHASE ≠ .idle := by simp [hp]
  obtain ⟨hseeded, hvalid⟩ := h.busy_seeded hb
  obtain ⟨hrow, hblk⟩ := h.check_home hp
  obtain ⟨p, hS, hF⟩ := h.attempt hb
  rw [State.progress_of_check hp] at hS hF
  obtain rfl : attemptMatrix p = a := Option.some.inj (hF.snapshot.symm.trans hM)
  by_cases hr : (rankFn s.rankTable (attemptMatrix p)).toNat = 64
  · rw [State.judge_accept s hr]
    constructor
    case accepted => exact fun _ => ⟨p, hF, BitVec.eq_of_toNat_eq hr⟩
    case seeded_written => exact h.seeded_written
    case out_written => exact h.out_written
    all_goals simp [hseeded, hl]
  · rw [State.judge_retry s hr]
    constructor
    case attempt =>
      intro _
      rw [State.progress_of_fill rfl]
      simp only [State.countRank_ROW, State.countRank_BLK, hrow, hblk]
      exact ⟨p.after 256, hS, .zero _ _⟩
    case seeded_written => exact h.seeded_written
    case out_written => exact h.out_written
    all_goals simp [hseeded, hvalid, hl]

/-- R146, R147: an accepted generation begins with no draw made. -/
theorem Inv.startGeneration {p : Prng} (h : Inv s) (hS : s.S = some p) : Inv s.startGeneration := by
  have hseeded : s.SEEDED = true := by rw [h.seeded_written, hS]; rfl
  constructor
  case attempt => exact fun _ => ⟨p, hS, .zero _ p⟩
  case seeded_written => exact h.seeded_written
  case out_written => exact h.out_written
  case rank_legal => exact h.rank_legal
  all_goals simp [hseeded]

theorem Inv.stopGeneration (h : Inv s) : Inv s.stopGeneration where
  busy_seeded hb := absurd rfl hb
  check_home hc := nomatch hc
  attempt hb := absurd rfl hb
  accepted := h.accepted
  valid_seeded := h.valid_seeded
  out_seeded := h.out_seeded
  seeded_written := h.seeded_written
  out_written := h.out_written
  rank_legal := h.rank_legal

theorem Inv.seedLoad (h : Inv s) (hp : s.PHASE = .idle) : Inv s.seedLoad where
  busy_seeded hb := absurd hp hb
  check_home := h.check_home
  attempt hb := absurd hp hb
  accepted := h.accepted
  valid_seeded _ := rfl
  out_seeded _ := rfl
  seeded_written := rfl
  out_written := h.out_written
  rank_legal := h.rank_legal

theorem Inv.drawn (h : Inv s) (hp : s.PHASE = .idle) (hd : s.SEEDED = true) (p : Prng) : Inv (s.drawn p) where
  busy_seeded hb := absurd hp hb
  check_home := h.check_home
  attempt hb := absurd hp hb
  accepted := h.accepted
  valid_seeded := h.valid_seeded
  out_seeded _ := hd
  seeded_written := hd
  out_written := rfl
  rank_legal := h.rank_legal

theorem Inv.setErr (h : Inv s) (e : ErrCode) : Inv (s.setErr e) := h.of_same (.fail s e)

theorem Inv.resetDevice (s : State) : Inv s.resetDevice := by constructor <;> simp

theorem Initial.inv (h : Initial s) : Inv s := by
  obtain ⟨host, turns, tbl, rfl⟩ := h
  exact Inv.resetDevice { State.reset with host := host, turns := turns, rankTable := tbl }

theorem Inv.effect (h : Inv s) (he : Effect s t) : Inv t := by
  have hengine : Inv s.takeTurn := h.of_same (.takeTurn s)
  have hhost : Inv (s.accessed .done) := h.of_same (.accessed s .done)
  cases he with
  | quiet _ same => exact h.of_same same
  | fill _ hp hS => exact hengine.fill hp hS
  | check _ hp hM hl => exact hengine.check hp hM hl
  | abort => exact hhost.stopGeneration.setErr _
  | loadSeed _ hp => exact (hhost.seedLoad hp).setErr _
  | step _ hp hd => exact (hhost.drawn hp hd _).setErr _
  | genSeeded _ hp => exact ((hhost.seedLoad hp).startGeneration rfl).setErr _
  | genContinue _ hp hd =>
    obtain ⟨p, hS⟩ := Option.isSome_iff_exists.1 (h.seeded_written.symm.trans hd)
    exact (hhost.startGeneration hS).setErr _
  | reset => exact .resetDevice _

/-- R34: every step keeps the invariant. -/
theorem step_keeps_inv (h : Inv s) (hs : step s = .next t) : Inv t := h.effect (step_effect hs)

end Sys2Proof.Machine

/-! ## Reads, each register at its own offset (spec/20_memory.md R52, R58) -/

namespace Sys2Proof.Machine

variable {s t : State}

theorem Reg.accessOk_offset (r : Reg) : accessOk r.offset 8 = true := by
  rw [accessOk_iff]
  refine ⟨rfl, ?_⟩
  cases r <;> simp [Reg.offset]

theorem Reg.regAt_offset (r : Reg) : regAt r.offset = some r := by
  cases r with
  | cmd => rfl
  | status => rfl
  | out => rfl
  | attempts => rfl
  | seed w => revert w; decide
  | s w => revert w; decide
  | matw w =>
    have hw : (Reg.matw w).offset.toNat = 0x100 + 8 * w.val := by simp [Reg.offset]; omega
    have hi : 8 * w.val / 8 = w.val := by omega
    simp (disch := omega) [regAt, hw, hi, if_neg, if_pos]

theorem memRead_offset (s : State) (r : Reg) : memRead s r.offset 8 = readReg s r := by
  simp [memRead, r.accessOk_offset, r.regAt_offset]

theorem memWrite_seed (s : State) (w : Fin 4) (v : Word) :
    memWrite s (Reg.seed w).offset 8 v = .next ((s.record .done).setSeed w v) := by
  simp [memWrite, Reg.accessOk_offset, Reg.regAt_offset]

theorem memWrite_status (s : State) (v : Word) : memWrite s Reg.status.offset 8 v = .next (s.record .busErr) := by
  simp [memWrite, Reg.accessOk_offset, Reg.regAt_offset]

/-! ### Values that are not there -/

theorem withDraw_none {k : Word → State → Host.Outcome State Fault Refusal} (h : s.S = none) :
    withDraw s k = .fault .unwrittenRead := by
  rw [withDraw, h]

theorem joinNibbles_concat (l : List (Option Nibble)) (e : Option Nibble) :
    joinNibbles (l ++ [e]) = (joinNibbles l).bind fun a => e.map fun x => (a <<< 4) ||| x.setWidth 64 := by
  simp [joinNibbles]

/-- R53, R36: nibbles make a word exactly when each of them holds a value. -/
theorem joinNibbles_eq_none_iff (l : List (Option Nibble)) : joinNibbles l = none ↔ none ∈ l := by
  induction l using List.reverseRecOn with
  | nil => simp [joinNibbles]
  | append_singleton l e ih =>
    rw [joinNibbles_concat, List.mem_append, ← ih]
    cases joinNibbles l <;> cases e <;> simp

theorem matrixWord_eq_none_iff (m : MatrixStore) (w : Fin 256) :
    matrixWord m w = none ↔
      ∃ k : Fin 16, (m[w.val / 4]'(by omega))[16 * (w.val % 4) + k.val]'(by omega) = none := by
  rw [matrixWord, joinNibbles_eq_none_iff, blockEntries, List.mem_ofFn]

theorem FilledFrom.matrixWord_ne_none {m : MatrixStore} {p : Prng} (h : FilledFrom m p 256) (w : Fin 256) :
    matrixWord m w ≠ none := by
  rw [Ne, matrixWord_eq_none_iff]
  rintro ⟨k, hk⟩
  have := h ⟨w.val / 4, by omega⟩ ⟨16 * (w.val % 4) + k.val, by omega⟩ (by simp; omega)
  simp [hk] at this

/-- R58, R36: of an idle XMG, a read whose flag is set and whose element holds no value stops. -/
theorem guarded_unwritten {flag : Bool} {v : Option Word} (hp : s.PHASE = .idle) (hf : flag = true) (hv : v = none) :
    guarded (!s.busy && flag) v = .error .unwrittenRead := by
  simp [guarded, (State.busy_eq_false_iff s).2 hp, hf, hv]

theorem guarded_completes {g : Bool} {v : Option Word} (h : g = true → v ≠ none) : ∃ r, guarded g v = .ok r := by
  cases g with
  | false => exact ⟨.busErr, rfl⟩
  | true =>
    obtain ⟨w, rfl⟩ := Option.ne_none_iff_exists'.1 (h rfl)
    exact ⟨.data w, rfl⟩

end Sys2Proof.Machine

/-! ## States with the invariant go on (spec/10_state.md R36; spec/60_exceptions.md R237) -/

namespace Sys2Proof.Machine

variable {s t : State}

theorem Inv.S_ne_none (h : Inv s) (hd : s.SEEDED = true) : s.S ≠ none :=
  Option.isSome_iff_ne_none.1 (h.seeded_written.symm.trans hd)

theorem Inv.OUT_ne_none (h : Inv s) (hv : s.OUT_VALID = true) : s.OUT ≠ none :=
  Option.isSome_iff_ne_none.1 (h.out_written.symm.trans hv)

theorem Inv.readReg_completes (h : Inv s) (r : Reg) : ∃ x, readReg s r = .ok x := by
  cases r with
  | cmd => exact ⟨_, rfl⟩
  | status => exact ⟨_, rfl⟩
  | attempts => exact ⟨_, rfl⟩
  | seed w => exact ⟨_, rfl⟩
  | out => exact guarded_completes fun hg => h.OUT_ne_none (Bool.and_elim_right hg)
  | s w => exact guarded_completes fun hg => by simpa using h.S_ne_none (Bool.and_elim_right hg)
  | matw w =>
    refine guarded_completes fun hg => ?_
    obtain ⟨p, hF, -⟩ := h.accepted (Bool.and_elim_right hg)
    exact hF.matrixWord_ne_none w

theorem Inv.memRead_completes (h : Inv s) (off : Offset) (size : Nat) : ∃ x, memRead s off size = .ok x := by
  unfold memRead
  split
  · split
    · next r _ => exact h.readReg_completes r
    · exact ⟨_, rfl⟩
  · exact ⟨_, rfl⟩

theorem Inv.withRead_completes (h : Inv s) (off : Offset) (size : Nat) (k : Response → State → State) :
    ∃ t, withRead s off size k = .next t := by
  obtain ⟨r, hr⟩ := h.memRead_completes off size
  exact ⟨k r (s.record r), by rw [withRead, hr]⟩

theorem withDraw_completes {k : Word → State → State} (h : s.S ≠ none) :
    ∃ t, withDraw s (fun v u => .next (k v u)) = .next t := by
  obtain ⟨p, hp⟩ := Option.ne_none_iff_exists'.1 h
  exact ⟨_, withDraw_some hp⟩

theorem whenIdle_completes {k : Host.Outcome State Fault Refusal} (h : ∃ t, k = .next t) :
    ∃ t, whenIdle s k = .next t := by
  unfold whenIdle
  split
  · exact h
  · exact ⟨_, rfl⟩

theorem whenLength_completes {len : Nat} {k : Host.Outcome State Fault Refusal} (h : ∃ t, k = .next t) :
    ∃ t, whenLength len s k = .next t := by
  unfold whenLength
  split
  · exact h
  · exact ⟨_, rfl⟩

theorem whenSeeded_completes {k : Host.Outcome State Fault Refusal} (h : s.SEEDED = true → ∃ t, k = .next t) :
    ∃ t, whenSeeded s k = .next t := by
  unfold whenSeeded
  split
  · next hd => exact h hd
  · exact ⟨_, rfl⟩

/-- R222: where SEEDED tells the truth about S, every command completes. -/
theorem exec_completes (i : Instr) (h : s.SEEDED = true → s.S ≠ none) : ∃ t, exec i s = .next t := by
  cases i with
  | nop => exact ⟨s, rfl⟩
  | loadSeed len => exact whenIdle_completes (whenLength_completes ⟨_, rfl⟩)
  | step => exact whenIdle_completes (whenSeeded_completes fun hd => withDraw_completes (h hd))
  | genSeeded len => exact whenIdle_completes (whenLength_completes ⟨_, rfl⟩)
  | genContinue => exact whenIdle_completes (whenSeeded_completes fun _ => ⟨_, rfl⟩)
  | abort =>
    show ∃ t, execAbort s = .next t
    unfold execAbort
    split <;> exact ⟨_, rfl⟩

theorem execute_completes (w : Word) (h : s.SEEDED = true → s.S ≠ none) : ∃ t, execute w s = .next t := by
  cases hd : decode w with
  | command i => rw [execute_command hd]; exact exec_completes i h
  | bad why => exact ⟨_, execute_bad hd⟩

theorem memWrite_completes (off : Offset) (size : Nat) (v : Word) (h : s.SEEDED = true → s.S ≠ none) :
    ∃ t, memWrite s off size v = .next t := by
  obtain ⟨-, -, he⟩ | ⟨w, -, -, he⟩ | he := memWrite_cases s off size v
  · rw [he]; exact execute_completes v h
  · exact ⟨_, he⟩
  · exact ⟨_, he⟩

theorem Inv.hostOp_completes (h : Inv s) (op : HostOp) : ∃ t, hostOp s op = .next t := by
  cases op with
  | read off size => exact h.withRead_completes off size _
  | write off size v => exact memWrite_completes (s := s.popHost) off size v h.S_ne_none
  | poll off mask v => exact h.withRead_completes off 8 _
  | reset => exact ⟨_, rfl⟩

theorem Inv.hostStep_completes (h : Inv s) : ∃ t, hostStep s = .next t := by
  cases hh : s.host with
  | nil => exact ⟨s, hostStep_of_no_host hh⟩
  | cons op rest => rw [hostStep_of_host hh]; exact h.hostOp_completes op

/-- R187: with a legal rank checker the port's answer is in 0..64, listed or not. -/
theorem RankTable.Legal.rankFn_le {t : RankTable} (h : t.Legal) (a : Mat64) : (rankFn t a).toNat ≤ 64 := by
  unfold rankFn rankLookup
  cases hf : t.find? fun e => decide (e.1 = a) with
  | none => exact (refRank_toNat a).trans_le (rankOf_le _)
  | some e => exact h e (List.mem_of_find?_eq_some hf)

/-- R143, R187: a CHECK of a whole store completes, or the rank checker breaks the protocol. -/
theorem checkStep_outcome {a : Mat64} (hM : snapshot s.MAT = some a) :
    (∃ t, checkStep s = .next t) ∨ (checkStep s = .fault .rankProtocol ∧ 64 < (rankFn s.rankTable a).toNat) := by
  by_cases hr : (rankFn s.rankTable a).toNat ≤ 64
  · exact .inl ⟨_, checkStep_answered hM rfl hr⟩
  · exact .inr ⟨by simp [checkStep, hM, hr], not_le.1 hr⟩

theorem Inv.engineStep_outcome (h : Inv s) :
    (∃ t, engineStep s = .next t) ∨ (engineStep s = .fault .rankProtocol ∧ ¬ s.rankTable.Legal) := by
  cases hp : s.PHASE with
  | idle => exact .inl ⟨s, engineStep_of_idle hp⟩
  | fill =>
    obtain ⟨p, hS, -⟩ := h.attempt (by simp [hp])
    exact .inl ⟨_, (engineStep_of_fill hp).trans (withDraw_some hS)⟩
  | check =>
    obtain ⟨p, -, hF⟩ := h.attempt (by simp [hp])
    rw [State.progress_of_check hp] at hF
    rw [engineStep_of_check hp]
    obtain hnext | ⟨hfault, hr⟩ := checkStep_outcome hF.snapshot
    · exact .inl hnext
    · exact .inr ⟨hfault, fun hl => absurd (hl.rankFn_le _) (not_le.2 hr)⟩

/-- R36, R237: a step from a state with the invariant completes, or a CHECK meets an answer above 64. -/
theorem Inv.step_outcome (h : Inv s) :
    (∃ t, step s = .next t) ∨ (step s = .fault .rankProtocol ∧ ¬ s.rankTable.Legal) := by
  have ht : Inv s.takeTurn := h.of_same (.takeTurn s)
  obtain ⟨-, he⟩ | ⟨-, he⟩ := step_cases s
  · rw [he]; exact .inl ht.hostStep_completes
  · rw [he]; exact ht.engineStep_outcome

theorem Inv.step_ne_unwrittenRead (h : Inv s) : step s ≠ .fault .unwrittenRead := by
  obtain ⟨t, he⟩ | ⟨he, -⟩ := h.step_outcome <;> simp [he]

theorem Inv.step_completes (h : Inv s) (hl : s.rankTable.Legal) : ∃ t, step s = .next t :=
  h.step_outcome.resolve_right fun hf => hf.2 hl

/-! ### Runs -/

/-- What holds at the start and is kept by every step holds after any number of steps. -/
theorem run_keeps {P : State → Prop} (hstep : ∀ u v, P u → step u = .next v → P v) {n : Nat} (h : P s)
    (hrun : run n s = .next t) : P t := by
  induction n generalizing s with
  | zero => cases hrun; exact h
  | succ n ih =>
    rw [run] at hrun
    cases hs : step s with
    | next u => rw [hs] at hrun; exact ih (hstep s u h hs) hrun
    | fault f => rw [hs] at hrun; cases hrun
    | refused r => rw [hs] at hrun; cases hrun

theorem Reaches.inv (hr : Reaches s t) (h : Inv s) : Inv t := by
  obtain ⟨n, hn⟩ := hr
  exact run_keeps (P := Inv) (fun _ _ => step_keeps_inv) h hn

theorem Reaches.rankTable_eq (hr : Reaches s t) : t.rankTable = s.rankTable := by
  obtain ⟨n, hn⟩ := hr
  have hstep : ∀ u v, u.rankTable = s.rankTable → step u = .next v → v.rankTable = s.rankTable :=
    fun _ _ hu hs => (step_effect hs).rankTable_eq.trans hu
  exact run_keeps hstep rfl hn

end Sys2Proof.Machine

/-! ## Who writes what (spec/10_state.md R22 to R33)

For each element, the effects that can change it. -/

namespace Sys2Proof.Machine

variable {s t : State}

/-- R143, R181: CHECK accepts the answer 64 and retries on a lesser one. -/
theorem State.judge_cases (s : State) {r : BitVec 7} (hl : r.toNat ≤ 64) :
    (r = 64 ∧ (s.judge r).PHASE = .idle ∧ (s.judge r).MATRIX_VALID = true) ∨
    (r.toNat < 64 ∧ (s.judge r).PHASE = .fill ∧ (s.judge r).MATRIX_VALID = s.MATRIX_VALID) := by
  by_cases hr : r.toNat = 64
  · rw [State.judge_accept s hr]
    exact .inl ⟨BitVec.eq_of_toNat_eq hr, rfl, rfl⟩
  · rw [State.judge_retry s hr]
    exact .inr ⟨by omega, rfl, rfl⟩

/-! ### Flags -/

section

variable {a b : Bool} {SetBy ClearedBy : Prop} (h : b ≠ a → (b = true ∧ SetBy) ∨ (b = false ∧ ClearedBy))
include h

theorem flag_set (ha : a = false) (hb : b = true) : SetBy := by
  obtain ⟨-, hset⟩ | ⟨hf, -⟩ := h (by simp [ha, hb])
  · exact hset
  · exact absurd hb (by simp [hf])

theorem flag_cleared (ha : a = true) (hb : b = false) : ClearedBy := by
  obtain ⟨ht, -⟩ | ⟨-, hcleared⟩ := h (by simp [ha, hb])
  · exact absurd hb (by simp [ht])
  · exact hcleared

theorem flag_kept (ha : a = true) (hn : ¬ ClearedBy) : b = true := by
  by_contra hb
  exact hn (flag_cleared h ha (by simpa using hb))

end

theorem Effect.SEEDED_change (he : Effect s t) (hne : t.SEEDED ≠ s.SEEDED) :
    (t.SEEDED = true ∧ s.PHASE = .idle ∧ (commandNow s (.loadSeed 32) ∨ commandNow s (.genSeeded 32))) ∨
    (t.SEEDED = false ∧ hostNow s .reset) := by
  cases he with
  | quiet _ same => exact absurd same.SEEDED hne
  | loadSeed now phase => exact .inl ⟨rfl, phase, .inl now⟩
  | genSeeded now phase => exact .inl ⟨rfl, phase, .inr now⟩
  | reset now => exact .inr ⟨rfl, now⟩
  | _ => simp at hne

theorem Effect.OUT_VALID_change (he : Effect s t) (hne : t.OUT_VALID ≠ s.OUT_VALID) :
    (t.OUT_VALID = true ∧ ((s.PHASE = .idle ∧ commandNow s .step) ∨ (engineNow s ∧ s.PHASE = .fill))) ∨
    (t.OUT_VALID = false ∧ hostNow s .reset) := by
  cases he with
  | quiet _ same => exact absurd same.OUT_VALID hne
  | fill now phase => exact .inl ⟨by simp, .inr ⟨now, phase⟩⟩
  | step now phase => exact .inl ⟨rfl, .inl ⟨phase, now⟩⟩
  | reset now => exact .inr ⟨rfl, now⟩
  | _ => simp at hne

theorem Effect.MATRIX_VALID_change (he : Effect s t) (hne : t.MATRIX_VALID ≠ s.MATRIX_VALID) :
    (t.MATRIX_VALID = true ∧ engineNow s ∧ s.PHASE = .check ∧ t.LAST_RANK = 64 ∧ t.PHASE = .idle) ∨
    (t.MATRIX_VALID = false ∧
      (hostNow s .reset ∨
       (s.PHASE = .idle ∧ (commandNow s (.genSeeded 32) ∨ (commandNow s .genContinue ∧ s.SEEDED = true))))) := by
  cases he with
  | quiet _ same => exact absurd same.MATRIX_VALID hne
  | check now phase _ legal =>
    obtain ⟨hr, hp, hv⟩ | ⟨-, -, hv⟩ := s.takeTurn.judge_cases legal
    · exact .inl ⟨hv, now, phase, by simp [hr], hp⟩
    · exact absurd hv hne
  | genSeeded now phase => exact .inr ⟨rfl, .inr ⟨phase, .inl now⟩⟩
  | genContinue now phase seeded => exact .inr ⟨rfl, .inr ⟨phase, .inr ⟨now, seeded⟩⟩⟩
  | reset now => exact .inr ⟨rfl, .inl now⟩
  | _ => simp at hne

/-! ### SEED, which an effect does not name -/

theorem step_of_commandNow {i : Instr} (h : commandNow s i) : step s = exec i (s.accessed .done) := by
  obtain ⟨w, hd, hw⟩ := h
  exact (step_of_hostNow hw).trans (execute_command hd)

theorem exec_SEED {i : Instr} (h : exec i s = .next t) : t.SEED = s.SEED := by
  rcases exec_next h with rfl | ⟨e, rfl⟩ | ⟨-, -, rfl⟩ | ⟨-, -, rfl⟩ | ⟨p, -, -, -, -, rfl⟩ | ⟨-, -, rfl⟩ | ⟨-, -, -, rfl⟩ <;>
    rfl

theorem engineStep_SEED (h : engineStep s = .next t) : t.SEED = s.SEED := by
  obtain ⟨-, rfl⟩ | ⟨p, -, -, rfl⟩ | ⟨a, -, -, -, rfl⟩ := engineStep_next h <;> simp

/-- R126: only reset and an accepted write to a seed register change SEED. -/
theorem step_SEED_change (h : step s = .next t) (hne : t.SEED ≠ s.SEED) :
    hostNow s .reset ∨
    ∃ (w : Fin 4) (v : Word), hostNow s (.write (BitVec.ofNat 12 (0x020 + 8 * w.val)) 8 v) := by
  rcases step_next h with ⟨-, he⟩ | ⟨-, -, rfl⟩ | ⟨_, _, _, -, -, rfl⟩ | ⟨_, mask, v, r, -, -, rfl⟩ |
    ⟨v, i, -, -, he⟩ | ⟨_, _, -, -, rfl⟩ | ⟨w, v, hop, -⟩ | ⟨_, _, _, -, rfl⟩ | ⟨hop, -⟩
  · exact absurd (engineStep_SEED he) hne
  · exact absurd rfl hne
  · exact absurd rfl hne
  · cases hends : pollEnds mask v r <;> simp [hends] at hne
  · exact absurd (exec_SEED he) hne
  · exact absurd rfl hne
  · exact .inr ⟨w, v, hop⟩
  · exact absurd rfl hne
  · exact .inl hop

end Sys2Proof.Machine

/-! ## STATUS, field by field (spec/10_state.md R31) -/

namespace Sys2Proof.Machine

/-- A field of STATUS reads back at its place. -/
theorem extractLsb'_fieldAt {n : Nat} (v : BitVec n) {lo : Nat} (h : lo + n ≤ 64) :
    (fieldAt v lo).extractLsb' lo n = v := by
  ext i hi
  have hlt : lo + i < 64 := by omega
  simp [fieldAt, hlt, BitVec.getLsbD_eq_getElem hi]

/-- A field of STATUS is 0 outside its place. -/
theorem extractLsb'_fieldAt_of_disjoint {n : Nat} (v : BitVec n) {lo lo' len : Nat}
    (h : lo' + len ≤ lo ∨ lo + n ≤ lo') : (fieldAt v lo).extractLsb' lo' len = 0 := by
  ext i hi
  simp only [fieldAt, BitVec.getElem_extractLsb', BitVec.getLsbD_shiftLeft, BitVec.getLsbD_setWidth]
  by_cases hlo : lo' + i < lo
  · simp [hlo]
  · simp [BitVec.getLsbD_of_ge v (lo' + i - lo) (by omega)]

theorem State.ofBool_busy (s : State) : BitVec.ofBool s.busy = if s.PHASE = .idle then 0 else 1 := by
  by_cases h : s.PHASE = .idle <;> simp [State.busy, h]

end Sys2Proof.Machine

namespace Sys2Proof.Proofs

open Sys2Proof.Machine

/-- Settles O48, effect by effect (`Inv.effect`). -/
theorem everyStepKeepsTheInvariant : Obligations.EveryStepKeepsTheInvariant := fun _ _ => step_keeps_inv

/-- Settles O54: a step from such a state completes or meets an illegal answer (`Inv.step_outcome`). -/
theorem invariantStatesGoOn : Obligations.InvariantStatesGoOn := by
  intro s h
  refine ⟨h.step_ne_unwrittenRead, fun hl => ?_⟩
  obtain ⟨t, ht⟩ := h.step_completes hl
  exact ⟨t, ht, step_keeps_inv h ht, (step_effect ht).rankTable_eq⟩

/-- Settles O22, from the effects that change SEEDED and OUT_VALID. -/
theorem seededAndOutValidLastUntilReset : Obligations.SeededAndOutValidLastUntilReset := by
  intro s t h
  have he := step_effect h
  refine ⟨flag_kept he.SEEDED_change, flag_set he.SEEDED_change, flag_kept he.OUT_VALID_change,
    flag_set he.OUT_VALID_change, fun hop => ?_⟩
  obtain rfl := reset_next hop h
  exact ⟨rfl, rfl⟩

/-- Settles O23, from the effects that change MATRIX_VALID. -/
theorem matrixValidIsSetByFullRankOnly : Obligations.MatrixValidIsSetByFullRankOnly := by
  intro s t h
  have he := step_effect h
  exact ⟨flag_set he.MATRIX_VALID_change, flag_cleared he.MATRIX_VALID_change⟩

/-- Settles O24, by the operation of the step. -/
theorem seedIsWrittenByTheHostOnly : Obligations.SeedIsWrittenByTheHostOnly := by
  intro s t h
  refine ⟨?engine, ?command, ?seedWrite, ?reset, step_SEED_change h⟩
  case engine =>
    intro hnow
    rw [step_of_engine_next hnow] at h
    exact (engineStep_SEED h).trans rfl
  case command =>
    intro i hnow
    rw [step_of_commandNow hnow] at h
    exact (exec_SEED h).trans rfl
  case seedWrite =>
    intro w v hnow
    rw [step_of_hostNow hnow] at h
    cases (memWrite_seed s.takeTurn.popHost w v).symm.trans h
    rfl
  case reset =>
    intro hop w
    simp [reset_next hop h]

/-- Settles O25, by the effect of the step. -/
theorem prngStateChangesByLoadDrawOrReset : Obligations.PrngStateChangesByLoadDrawOrReset := by
  intro s t h hne
  cases step_effect h with
  | quiet _ same => simp [same.S, same.OUT] at hne
  | fill now phase hS => exact .inr (.inr ⟨.inr ⟨now, phase⟩, _, hS, by simp, by simp⟩)
  | check => simp at hne
  | abort => simp at hne
  | loadSeed now phase => exact .inr (.inl ⟨.inl now, phase, rfl, rfl⟩)
  | step now phase seeded hS => exact .inr (.inr ⟨.inl ⟨now, phase, seeded⟩, _, hS, rfl, rfl⟩)
  | genSeeded now phase => exact .inr (.inl ⟨.inr now, phase, rfl, rfl⟩)
  | genContinue => simp at hne
  | reset now => exact .inl ⟨now, rfl, rfl⟩

/-- Settles O26, by the effect of the step. -/
theorem matrixIsWrittenByFillOnly : Obligations.MatrixIsWrittenByFillOnly := by
  intro s t h hne
  cases step_effect h with
  | quiet _ same => exact absurd same.MAT hne
  | fill now phase => exact .inr ⟨now, phase⟩
  | reset now => exact .inl ⟨now, unwritten_entry⟩
  | _ => simp at hne

/-- Settles O27, by the effect of the step. -/
theorem countersChangeByCheckStartOrReset : Obligations.CountersChangeByCheckStartOrReset := by
  intro s t h
  have he := step_effect h
  refine ⟨he.rankTable_eq, fun hne => ?_⟩
  cases he with
  | quiet _ same => simp [same.LAST_RANK, same.ATTEMPTS] at hne
  | check now phase hMAT =>
    exact .inr (.inr ⟨now, phase, by simp [countAttempt_toNat], _, hMAT, by simp⟩)
  | genSeeded now phase => exact .inr (.inl ⟨.inl now, phase, rfl, rfl⟩)
  | genContinue now phase seeded => exact .inr (.inl ⟨.inr ⟨now, seeded⟩, phase, rfl, rfl⟩)
  | reset now => exact .inl ⟨now, rfl, rfl⟩
  | _ => simp at hne

/-- Settles O28, by the effect of the step, and by the sequencer's position after a FILL. -/
theorem phaseFollowsTheSequencer : Obligations.PhaseFollowsTheSequencer := by
  intro s t h hne
  cases step_effect h with
  | quiet _ same => exact absurd same.PHASE hne
  | @fill p now phase =>
    have hf : ((s.takeTurn.drawn p).store p.out).PHASE = .fill := phase
    rcases State.advance_cases ((s.takeTurn.drawn p).store p.out) with ⟨-, he⟩ | ⟨-, -, he⟩ | ⟨hb, hr, he⟩
    · exact absurd (by rw [he]; rfl) hne
    · exact absurd (by rw [he]; rfl) hne
    · rw [he]
      exact .inr (.inl ⟨phase, rfl, now, hr, hb, rfl, rfl⟩)
  | check now phase _ legal =>
    obtain ⟨hr, hp, hv⟩ | ⟨hr, hp, -⟩ := s.takeTurn.judge_cases legal
    · exact .inr (.inr (.inr (.inl ⟨phase, hp, now, by simp [hr], hv⟩)))
    · exact .inr (.inr (.inl ⟨phase, hp, now, by simpa using hr, by simp, by simp⟩))
  | abort now phase => exact .inr (.inr (.inr (.inr ⟨phase, rfl, rfl, rfl, .inl now⟩)))
  | loadSeed => exact absurd rfl hne
  | step => exact absurd rfl hne
  | genSeeded now phase => exact .inl ⟨phase, rfl, rfl, rfl, .inl now⟩
  | genContinue now phase seeded => exact .inl ⟨phase, rfl, rfl, rfl, .inr ⟨now, seeded⟩⟩
  | reset now => exact .inr (.inr (.inr (.inr ⟨fun hp => hne hp.symm, rfl, rfl, rfl, .inr now⟩)))

/-- Settles O49: every reached state has the invariant and the rank checker of the start. -/
theorem runsFromResetNeverStop : Obligations.RunsFromResetNeverStop := by
  intro s₀ s h₀ hr
  have h : Inv s := hr.inv h₀.inv
  exact ⟨h.step_ne_unwrittenRead, fun hl => h.step_completes (hr.rankTable_eq ▸ hl)⟩

/-- Settles O20, by the rule that reads. -/
theorem unwrittenReadsFault : Obligations.UnwrittenReadsFault := by
  refine ⟨?step, ?fill, ?check, ?readOut, ?readS, ?readMatw⟩
  case step =>
    intro s hp hd hS
    simp [exec, execStep, whenIdle, whenSeeded, hp, hd, withDraw_none hS]
  case fill =>
    intro s hp hS
    exact (engineStep_of_fill hp).trans (withDraw_none hS)
  case check =>
    intro s hp hM
    rw [engineStep_of_check hp, checkStep, (snapshot_eq_none_iff s.MAT).2 hM]
  case readOut => exact fun s hp hv hO => (memRead_offset s .out).trans (guarded_unwritten hp hv hO)
  case readS =>
    intro s hp hd hS w
    exact (memRead_offset s (.s w)).trans (guarded_unwritten hp hd (by simp [hS]))
  case readMatw =>
    intro s hp hv i b k hk
    have hrow : (4 * i.val + b.val) / 4 = i.val := by omega
    have hblk : (4 * i.val + b.val) % 4 = b.val := by omega
    have hw : matrixWord s.MAT ⟨4 * i.val + b.val, by omega⟩ = none :=
      (matrixWord_eq_none_iff _ _).2 ⟨k, by simpa [hrow, hblk] using hk⟩
    exact (memRead_offset s (.matw ⟨4 * i.val + b.val, by omega⟩)).trans (guarded_unwritten hp hv hw)

/-- Settles O42: the fields of STATUS do not overlap. -/
theorem statusShowsItsFields : Obligations.StatusShowsItsFields := by
  intro s
  refine ⟨memRead_offset s .status, memWrite_status s, ?busy, ?seeded, ?outValid, ?matrixValid, ?reserved4, ?err,
    ?reserved12, ?lastRank, ?reserved23⟩
  all_goals simp [State.status, BitVec.extractLsb'_or, extractLsb'_fieldAt, extractLsb'_fieldAt_of_disjoint]
  case busy => exact s.ofBool_busy
  case seeded => cases s.SEEDED <;> rfl
  case outValid => cases s.OUT_VALID <;> rfl
  case matrixValid => cases s.MATRIX_VALID <;> rfl
  case err => cases s.ERR <;> rfl

/-- Settles O47. -/
theorem invariantHoldsAfterReset : Obligations.InvariantHoldsAfterReset := fun _ => Initial.inv

end Sys2Proof.Proofs

/-! ## The window's map and its accesses (spec/20_memory.md R52 to R59) -/

namespace Sys2Proof.Machine

variable {s t : State} {off : Offset} {size : Nat}

/-! ### The map -/

theorem regAt_eq_some {r : Reg} (h8 : off.toNat % 8 = 0) (h : regAt off = some r) : off = r.offset := by
  apply BitVec.eq_of_toNat_eq
  simp only [regAt] at h
  repeat' split at h
  all_goals cases h
  all_goals simp [Reg.offset, Fin.ofNat]
  all_goals omega

theorem regAt_eq_some_iff {r : Reg} (h8 : off.toNat % 8 = 0) : regAt off = some r ↔ off = r.offset := by
  refine ⟨regAt_eq_some h8, ?_⟩
  rintro rfl
  exact r.regAt_offset

theorem regAt_eq_none_iff :
    regAt off = none ↔ (0x060 ≤ off.toNat ∧ off.toNat < 0x100) ∨ 0x900 ≤ off.toNat := by
  simp only [regAt]
  split_ifs <;> simp <;> omega

theorem accessOk_eq_false (h : size ≠ 8 ∨ off.toNat % 8 ≠ 0) : accessOk off size = false := by
  rw [← Bool.not_eq_true, accessOk_iff, not_and_or]
  exact h

/-! ### Reads -/

theorem memRead_not_ok (s : State) (h : accessOk off size = false) : memRead s off size = .ok .busErr := by
  simp [memRead, h]

theorem memRead_no_reg (s : State) (h : regAt off = none) : memRead s off size = .ok .busErr := by
  simp [memRead, h]

theorem guarded_busErr {flag : Bool} {v : Option Word} (h : s.PHASE ≠ .idle ∨ flag = false) :
    guarded (!s.busy && flag) v = .ok .busErr := by
  obtain hp | hf := h
  · simp [guarded, (State.busy_iff s).2 hp]
  · simp [guarded, hf]

theorem guarded_data {flag : Bool} {v : Option Word} {x : Word} (hp : s.PHASE = .idle) (hf : flag = true)
    (hv : v = some x) : guarded (!s.busy && flag) v = .ok (.data x) := by
  simp [guarded, (State.busy_eq_false_iff s).2 hp, hf, hv]

theorem withRead_ok {r : Response} {k : Response → State → State} (h : memRead s off size = .ok r) :
    withRead s off size k = .next (k r (s.record r)) := by
  rw [withRead, h]

/-! ### Writes -/

theorem memWrite_not_ok (s : State) (v : Word) (h : accessOk off size = false) :
    memWrite s off size v = .next (s.record .busErr) := by
  simp [memWrite, h]

theorem memWrite_cmd (s : State) (v : Word) : memWrite s 0x000 8 v = execute v (s.record .done) := by
  simp [memWrite]

/-- R59: neither CMD nor a seed register is there. -/
theorem memWrite_dropped (s : State) (v : Word) (h0 : off.toNat ≠ 0) (h : off.toNat < 0x020 ∨ 0x040 ≤ off.toNat) :
    memWrite s off size v = .next (s.record .busErr) := by
  obtain ⟨-, hr, -⟩ | ⟨w, ha, hr, -⟩ | he := memWrite_cases s off size v
  · exact absurd (congrArg BitVec.toNat (regAt_eq_cmd hr)) h0
  · have hoff := congrArg BitVec.toNat (regAt_eq_seed (accessOk_iff.1 ha).2 hr)
    simp at hoff
    omega
  · exact he

/-! ### The engine and SEED -/

theorem State.advance_withSEED (s : State) (sd : Vector Word 4) :
    ({ s with SEED := sd } : State).advance = { s.advance with SEED := sd } := by
  unfold State.advance
  split_ifs <;> rfl

theorem State.judge_withSEED (s : State) (sd : Vector Word 4) (r : BitVec 7) :
    ({ s with SEED := sd } : State).judge r = { s.judge r with SEED := sd } := by
  unfold State.judge
  split_ifs <;> rfl

/-- R59: the engine's step neither reads nor writes SEED. -/
theorem engineStep_withSEED (sd : Vector Word 4) (h : engineStep s = .next t) :
    engineStep { s with SEED := sd } = .next { t with SEED := sd } := by
  obtain ⟨hp, rfl⟩ | ⟨p, hp, hS, rfl⟩ | ⟨a, hp, hM, hl, rfl⟩ := engineStep_next h
  · exact engineStep_of_idle hp
  · rw [← State.advance_withSEED]
    exact (engineStep_of_fill (s := { s with SEED := sd }) hp).trans (withDraw_some hS)
  · rw [← State.judge_withSEED]
    exact (engineStep_of_check (s := { s with SEED := sd }) hp).trans (checkStep_answered hM rfl hl)

end Sys2Proof.Machine

/-! ## The host's operations, each to its end (spec/20_memory.md R62; spec/30_encoding.md R87) -/

namespace Sys2Proof.Machine

variable {s t : State}

theorem pollEnds_iff {mask v : Word} {r : Response} :
    pollEnds mask v r = true ↔ ∃ x, r = .data x ∧ x &&& mask = v := by
  cases r <;> simp [pollEnds]

theorem exec_host {i : Instr} (h : exec i s = .next t) : t.host = s.host := by
  rcases exec_next h with rfl | ⟨e, rfl⟩ | ⟨-, -, rfl⟩ | ⟨-, -, rfl⟩ | ⟨p, -, -, -, -, rfl⟩ | ⟨-, -, rfl⟩ |
    ⟨-, -, -, rfl⟩ <;> rfl

theorem execute_host {w : Word} (h : execute w s = .next t) : t.host = s.host := by
  cases hd : decode w with
  | command i => exact exec_host (execute_command hd ▸ h)
  | bad why =>
    cases (execute_bad hd).symm.trans h
    rfl

theorem memWrite_host {off : Offset} {size : Nat} {v : Word} (h : memWrite s off size v = .next t) :
    t.host = s.host := by
  obtain ⟨-, -, he⟩ | ⟨w, -, -, rfl⟩ | rfl := hostWrite_next h
  · exact (execute_host he).trans rfl
  · rfl
  · rfl

theorem hostOp_host {op : HostOp} (hop : ∀ off mask v, op ≠ .poll off mask v) (h : hostOp s op = .next t) :
    t.host = s.host.tail := by
  cases op with
  | read off size =>
    obtain ⟨r, -, rfl⟩ := withRead_next h
    rfl
  | write off size v => exact memWrite_host (s := s.popHost) h
  | poll off mask v => exact absurd rfl (hop off mask v)
  | reset => cases h; rfl

theorem hostOp_poll {off : Offset} {mask v : Word} (h : hostOp s (.poll off mask v) = .next t) :
    ∃ r, memRead s off 8 = .ok r ∧ t.log = r :: s.log ∧
      ((pollEnds mask v r = true ∧ t.host = s.host.tail) ∨ (pollEnds mask v r = false ∧ t.host = s.host)) := by
  obtain ⟨r, hr, rfl⟩ := withRead_next h
  refine ⟨r, hr, ?_⟩
  cases pollEnds mask v r with
  | true => exact ⟨rfl, .inl ⟨rfl, rfl⟩⟩
  | false => exact ⟨rfl, .inr ⟨rfl, rfl⟩⟩

end Sys2Proof.Machine

/-! ## Bytes of the window (spec/20_memory.md R56) -/

namespace Sys2Proof.Machine

theorem windowByte_of_read {s : State} {off : Offset} {k : Nat} {v : Word} (h8 : off.toNat % 8 = 0) (hk : k < 8)
    (h : memRead s off 8 = .ok (.data v)) :
    windowByte s (BitVec.ofNat 12 (off.toNat + k)) = some (v.extractLsb' (8 * k) 8) := by
  have hoff : (BitVec.ofNat 12 (off.toNat + k)).toNat = off.toNat + k := by
    rw [BitVec.toNat_ofNat, Nat.mod_eq_of_lt (by omega)]
  have hbyte : (off.toNat + k) % 8 = k := by omega
  have hreg : BitVec.ofNat 12 (off.toNat + k - k) = off := by
    rw [Nat.add_sub_cancel, BitVec.ofNat_toNat, BitVec.setWidth_eq]
  rw [windowByte, hoff, hbyte, hreg, h]
  rfl

end Sys2Proof.Machine

/-! ## Matrix words (spec/20_memory.md R53; spec/42_matrix_generator.md R140, R141) -/

namespace Sys2Proof.Machine

theorem nibble_eq_extractLsb' (v : Word) (k : Nat) : nibble v k = v.extractLsb' (60 - 4 * k) 4 := by
  ext i hi
  simp [nibble]

/-! ### Nibbles side by side -/

/-- As many nibbles as there are reach no further than their own bits. -/
theorem joinNibbles_getLsbD {l : List (Option Nibble)} {a : Word} (h : joinNibbles l = some a) :
    ∀ i, 4 * l.length ≤ i → a.getLsbD i = false := by
  induction l using List.reverseRecOn generalizing a with
  | nil =>
    cases h
    simp
  | append_singleton l e ih =>
    intro i hi
    rw [joinNibbles_concat] at h
    obtain ⟨b, hb, hx⟩ := Option.bind_eq_some_iff.1 h
    obtain ⟨x, -, rfl⟩ := Option.map_eq_some_iff.1 hx
    rw [List.length_append, List.length_singleton] at hi
    simp [ih hb (i - 4) (by omega), BitVec.getLsbD_of_ge x i (by omega)]

/-- A word is its lowest nibble below the bits above it. -/
theorem shiftLeft_or_nibble_eq_iff {a v : Word} {x : Nibble} (ha : ∀ i, 60 ≤ i → a.getLsbD i = false) :
    a <<< 4 ||| x.setWidth 64 = v ↔ a = v >>> 4 ∧ x = v.extractLsb' 0 4 := by
  constructor
  · rintro rfl
    constructor <;> (ext i hi)
    · by_cases h : 4 + i < 64
      · simp [h]
      · simpa [h, BitVec.getLsbD_eq_getElem hi] using ha i (by omega)
    · have h : i < 64 := by omega
      simp [hi, h]
  · rintro ⟨rfl, rfl⟩
    ext i hi
    by_cases h : i < 4
    · simp [h, BitVec.getLsbD_eq_getElem hi]
    · have hback : 4 + (i - 4) = i := by omega
      simp [h, hback, BitVec.getLsbD_eq_getElem hi]

theorem joinNibbles_concat_eq_some_iff {l : List (Option Nibble)} (hl : l.length ≤ 15) (e : Option Nibble) (v : Word) :
    joinNibbles (l ++ [e]) = some v ↔ joinNibbles l = some (v >>> 4) ∧ e = some (v.extractLsb' 0 4) := by
  rw [joinNibbles_concat]
  cases hj : joinNibbles l with
  | none => simp
  | some a =>
    have ha : ∀ i, 60 ≤ i → a.getLsbD i = false := fun i hi => joinNibbles_getLsbD hj i (by omega)
    cases e with
    | none => simp
    | some x => simpa using shiftLeft_or_nibble_eq_iff ha

/-- R53: up to 16 nibbles, the first in the highest place, make the word whose nibbles they are. -/
theorem joinNibbles_eq_some_iff {l : List (Option Nibble)} (hl : l.length ≤ 16) (v : Word) :
    joinNibbles l = some v ↔
      v >>> (4 * l.length) = 0 ∧
      ∀ k < l.length, l[k]? = some (some (v.extractLsb' (4 * (l.length - 1 - k)) 4)) := by
  induction l using List.reverseRecOn generalizing v with
  | nil => simpa [joinNibbles] using eq_comm
  | append_singleton l e ih =>
    rw [List.length_append, List.length_singleton] at hl ⊢
    have hlow (k : Nat) (hk : k < l.length) :
        (v >>> 4).extractLsb' (4 * (l.length - 1 - k)) 4 = v.extractLsb' (4 * (l.length + 1 - 1 - k)) 4 := by
      have hpos : 4 * (l.length + 1 - 1 - k) = 4 + 4 * (l.length - 1 - k) := by omega
      rw [hpos]
      ext i hi
      simp [Nat.add_assoc]
    have hhigh : v >>> 4 >>> (4 * l.length) = v >>> (4 * (l.length + 1)) := by
      rw [← BitVec.shiftRight_add, Nat.mul_succ, Nat.add_comm]
    rw [joinNibbles_concat_eq_some_iff (by omega), ih (by omega), hhigh, Nat.forall_lt_succ_right, and_assoc]
    refine and_congr_right fun _ => and_congr (forall₂_congr fun k hk => ?_) (by simp)
    rw [List.getElem?_append_left hk, hlow k hk]

theorem joinNibbles_ofFn_eq_some_iff (f : Fin 16 → Option Nibble) (v : Word) :
    joinNibbles (List.ofFn f) = some v ↔ ∀ k : Fin 16, f k = some (v.extractLsb' (60 - 4 * k.val) 4) := by
  have hpos (k : Nat) : 4 * (16 - 1 - k) = 60 - 4 * k := by omega
  have hover : v >>> (4 * 16) = 0 := BitVec.ushiftRight_eq_zero (by decide)
  rw [joinNibbles_eq_some_iff (by rw [List.length_ofFn]), List.length_ofFn, hover]
  simp only [true_and, List.getElem?_ofFn, hpos, Fin.forall_iff]
  exact forall₂_congr fun k hk => by simp [hk]

/-! ### A word of the store -/

/-- R53: a matrix word is made of its row's and block's 16 entries. -/
theorem matrixWord_eq_some_iff (m : MatrixStore) {i : Fin 64} {b : Fin 4} {w : Fin 256} (hw : w.val = 4 * i.val + b.val)
    (v : Word) :
    matrixWord m w = some v ↔
      ∀ k : Fin 16, m[i.val][16 * b.val + k.val] = some (v.extractLsb' (60 - 4 * k.val) 4) := by
  obtain ⟨w, hlt⟩ := w
  subst hw
  have hrow : (4 * i.val + b.val) / 4 = i.val := by omega
  have hblk : (4 * i.val + b.val) % 4 = b.val := by omega
  rw [matrixWord, blockEntries, joinNibbles_ofFn_eq_some_iff]
  simp only [hrow, hblk]

theorem blockEntries_congr {m m' : MatrixStore} {w : Fin 256}
    (h : ∀ r c : Fin 64, r.val = w.val / 4 → c.val / 16 = w.val % 4 → m[r.val][c.val] = m'[r.val][c.val]) :
    blockEntries m w = blockEntries m' w := by
  unfold blockEntries
  congr 1
  funext k
  exact h ⟨w.val / 4, by omega⟩ ⟨16 * (w.val % 4) + k.val, by omega⟩ rfl (by simp; omega)

theorem matrixWord_unpack_same (m : MatrixStore) {i : Fin 64} {b : Fin 4} {w : Fin 256}
    (hw : w.val = 4 * i.val + b.val) (v : Word) : matrixWord (unpack m i b v) w = some v := by
  rw [matrixWord_eq_some_iff _ hw]
  intro k
  have hblk : (16 * b.val + k.val) / 16 = b.val := by omega
  have hcol : (16 * b.val + k.val) % 16 = k.val := by omega
  have := unpack_entry m i b v i ⟨16 * b.val + k.val, by omega⟩
  simpa [hblk, hcol, nibble_eq_extractLsb'] using this

theorem matrixWord_unpack_other (m : MatrixStore) {i : Fin 64} {b : Fin 4} {w w' : Fin 256}
    (hw : w.val = 4 * i.val + b.val) (v : Word) (hne : w' ≠ w) :
    matrixWord (unpack m i b v) w' = matrixWord m w' := by
  rw [matrixWord, matrixWord, blockEntries_congr]
  intro r c hr hc
  rw [unpack_entry, if_neg]
  rintro ⟨rfl, hb⟩
  exact hne (Fin.ext (by omega))

/-- R53, R140: each matrix word of a whole attempt is the draw of its number. -/
theorem FilledFrom.matrixWord_eq_draw {m : MatrixStore} {p : Prng} (h : FilledFrom m p 256) (w : Fin 256) :
    matrixWord m w = some (p.draw w.val) := by
  rw [matrixWord_eq_some_iff (i := ⟨w.val / 4, by omega⟩) (b := ⟨w.val % 4, by omega⟩) m (by simp; omega)]
  intro k
  have hdraw : 4 * (w.val / 4) + (16 * (w.val % 4) + k.val) / 16 = w.val := by omega
  have hcol : (16 * (w.val % 4) + k.val) % 16 = k.val := by omega
  have := h ⟨w.val / 4, by omega⟩ ⟨16 * (w.val % 4) + k.val, by omega⟩ (by simp; omega)
  simpa [hdraw, hcol, nibble_eq_extractLsb'] using this

/-- R68, R151: while the matrix is exposed, XMG is idle. -/
theorem Inv.idle_of_matrixValid {s : State} (h : Inv s) (hv : s.MATRIX_VALID = true) : s.PHASE = .idle := by
  by_contra hb
  cases hv.symm.trans (h.busy_seeded hb).2

end Sys2Proof.Machine

namespace Sys2Proof.Proofs

open Sys2Proof.Machine

/-- Settles O35: off the reserved ranges the map inverts `Reg.offset` (`regAt_eq_some_iff`). -/
theorem registerMapIsOneToOne : Obligations.RegisterMapIsOneToOne := by
  refine ⟨?offset, fun off r h8 => regAt_eq_some_iff h8, ?reserved⟩
  case offset => rintro (_ | _ | _ | _ | w | w | w) <;> simp [Reg.offset] <;> omega
  case reserved =>
    intro off h8
    rw [regAt_eq_none_iff]
    omega

/-- Settles O36: each register's read stands at its offset (`memRead_offset`), and its guard decides. -/
theorem memReadFollowsTheMap : Obligations.MemReadFollowsTheMap := by
  intro s
  refine ⟨?notOk, memRead_offset s .status, memRead_offset s .attempts, fun w => memRead_offset s (.seed w), ?out,
    ?outGuard, ?prng, ?prngGuard, ?matw, ?matwGuard, ?noRead, ?host⟩
  case notOk => exact fun off size h => memRead_not_ok s (accessOk_eq_false h)
  case out => exact fun v hp hf hv => (memRead_offset s .out).trans (guarded_data hp hf hv)
  case outGuard => exact fun h => (memRead_offset s .out).trans (guarded_busErr h)
  case prng =>
    intro s0 s1 s2 s3 hp hf hS
    have hread (w : Fin 4) : memRead s (Reg.s w).offset 8 = .ok (.data ((Prng.mk s0 s1 s2 s3).word w)) :=
      (memRead_offset s (.s w)).trans (guarded_data hp hf (by rw [hS]; rfl))
    exact ⟨hread 0, hread 1, hread 2, hread 3⟩
  case prngGuard => exact fun w h => (memRead_offset s (.s w)).trans (guarded_busErr h)
  case matw => exact fun w v hp hf hv => (memRead_offset s (.matw w)).trans (guarded_data hp hf hv)
  case matwGuard => exact fun w h => (memRead_offset s (.matw w)).trans (guarded_busErr h)
  case noRead =>
    rintro off (h0 | hres)
    · obtain rfl : off = 0x000 := BitVec.eq_of_toNat_eq h0
      exact memRead_offset s .cmd
    · by_cases h8 : off.toNat % 8 = 0
      · exact memRead_no_reg s (regAt_eq_none_iff.2 (by omega))
      · exact memRead_not_ok s (accessOk_eq_false (.inr h8))
  case host => exact fun off size r h => withRead_ok h

/-- Settles O37, by the register that stands at the offset; the engine names SEED nowhere (`engineStep_withSEED`). -/
theorem memWriteFollowsTheMap : Obligations.MemWriteFollowsTheMap := by
  intro s v
  exact ⟨fun off size h => memWrite_not_ok s v (accessOk_eq_false h), memWrite_cmd s v, fun w => memWrite_seed s w v,
    fun off h0 h => memWrite_dropped s v h0 h, fun sd t h => engineStep_withSEED sd h⟩

/-- Settles O40, operation by operation. -/
theorem hostOperationsRunInOrder : Obligations.HostOperationsRunInOrder := by
  intro s t op rest h hagent hhost
  have hnow : hostNow s op := ⟨hagent, by rw [hhost]; rfl⟩
  have htail : s.host.tail = rest := by rw [hhost]; rfl
  rw [step_of_hostNow hnow] at h
  refine ⟨?poll, fun hop => (hostOp_host hop h).trans htail, ?read⟩
  case poll =>
    rintro off mask v rfl
    obtain ⟨r, hr, hlog, hends⟩ := hostOp_poll h
    refine ⟨r, by simpa using hr, hlog, ?_⟩
    obtain ⟨hends, ht⟩ | ⟨hends, ht⟩ := hends
    · obtain ⟨x, hx, hm⟩ := pollEnds_iff.1 hends
      exact .inl ⟨x, hx, hm, ht.trans htail⟩
    · refine .inr ⟨fun x hx hm => ?_, ht⟩
      simp [pollEnds_iff.2 ⟨x, hx, hm⟩] at hends
  case read =>
    rintro off size rfl
    obtain ⟨r, hr, rfl⟩ := withRead_next h
    exact ⟨r, by simpa using hr, rfl⟩

/-- Settles O41: a matrix word is its 16 nibbles (`joinNibbles_eq_some_iff`), and Unpack writes one word's entries. -/
theorem matrixWordIsItsDraw : Obligations.MatrixWordIsItsDraw :=
  ⟨fun m _ _ _ v hw => matrixWord_eq_some_iff m hw v,
   fun m _ _ _ v hw => ⟨matrixWord_unpack_same m hw v, fun _ hne => matrixWord_unpack_other m hw v hne⟩⟩

/-- Settles O43: the byte at an offset is read from the register at the multiple of 8 below. -/
theorem windowBytesAreLittleEndian : Obligations.WindowBytesAreLittleEndian := by
  refine ⟨fun s off k v => windowByte_of_read, fun s w k => ?_⟩
  have hoff : (Reg.seed w).offset.toNat = 0x020 + 8 * w.val := by
    simp [Reg.offset]
    omega
  have h := windowByte_of_read (by omega) k.isLt (memRead_offset s (.seed w))
  rwa [hoff, Nat.add_assoc] at h

/-- Settles O55: the invariant says which stream the accepted attempt is of. -/
theorem invariantStatesExposeAnAcceptedAttempt : Obligations.InvariantStatesExposeAnAcceptedAttempt := by
  intro s h hv
  have hp := h.idle_of_matrixValid hv
  obtain ⟨p, hF, hr⟩ := h.accepted hv
  exact ⟨hp, p, hr, fun w => (memRead_offset s (.matw w)).trans (guarded_data hp hv (hF.matrixWord_eq_draw w))⟩

/-- Settles O50: every reached state has the invariant and the rank checker of the start. -/
theorem exposedMatrixIsAnAcceptedAttempt : Obligations.ExposedMatrixIsAnAcceptedAttempt := by
  intro s₀ s h₀ hr hv
  rw [← hr.rankTable_eq]
  exact invariantStatesExposeAnAcceptedAttempt s (hr.inv h₀.inv) hv

/-- Settles O7, by the equation of a step that is a command (`step_of_commandNow`). -/
theorem stepRunsTheDecodedCommand : Obligations.StepRunsTheDecodedCommand := by
  refine ⟨fun s w i rest ha hh hd => ?_, fun s w i hd => ?_⟩
  · have hnow : commandNow s i := ⟨w, hd, ha, by rw [hh]; rfl⟩
    have htail : s.host.tail = rest := by rw [hh]; rfl
    rw [step_of_commandNow hnow, ← htail]
    rfl
  · have hword : BitVec.ofNat 64 (w.toNat % 2 ^ 64) = w := by
      rw [Nat.mod_eq_of_lt w.isLt, BitVec.ofNat_toNat, BitVec.setWidth_eq]
    have hnow : commandNow (s.withFetchWord 64 w.toNat) i := ⟨_, hword.symm ▸ hd, rfl, rfl⟩
    exact step_of_commandNow hnow

end Sys2Proof.Proofs

/-! ## The command word and its table (spec/30_encoding.md R81 to R86)

A word is its four fields, and the words that decode to a command are the encodings of the well-formed commands; what
R84 and R86 say of a word's digits, and what R83's table matches, is read off that. -/

namespace Sys2Proof

variable {w : Word} {i : Instr}

/-! ### The fields as digits -/

theorem opcodeField_toNat (w : Word) : (opcodeField w).toNat = w.toNat % 2 ^ 4 := by
  simp [opcodeField]

theorem rsv0Field_toNat (w : Word) : (rsv0Field w).toNat = w.toNat / 2 ^ 4 % 2 ^ 4 := by
  simp [rsv0Field, Nat.shiftRight_eq_div_pow]

theorem lenField_toNat (w : Word) : (lenField w).toNat = w.toNat / 2 ^ 8 % 2 ^ 16 := by
  simp [lenField, Nat.shiftRight_eq_div_pow]

theorem rsv1Field_toNat (w : Word) : (rsv1Field w).toNat = w.toNat / 2 ^ 24 := by
  have := w.isLt
  rw [rsv1Field, BitVec.extractLsb'_toNat, Nat.shiftRight_eq_div_pow, Nat.mod_eq_of_lt (by omega)]

theorem commandWord_toNat (op : BitVec 4) (len : BitVec 16) :
    (commandWord op len).toNat = 2 ^ 8 * len.toNat + op.toNat := by
  have hop := op.isLt
  have hlen := len.isLt
  have hshift : len.toNat <<< 8 < 2 ^ 64 := by
    rw [Nat.shiftLeft_eq]
    omega
  rw [commandWord, BitVec.toNat_or, BitVec.toNat_shiftLeft, BitVec.toNat_setWidth, BitVec.toNat_setWidth,
    Nat.mod_eq_of_lt (by omega : len.toNat < 2 ^ 64), Nat.mod_eq_of_lt (by omega : op.toNat < 2 ^ 64),
    Nat.mod_eq_of_lt hshift, ← Nat.shiftLeft_add_eq_or_of_lt (by omega : op.toNat < 2 ^ 8), Nat.shiftLeft_eq, Nat.mul_comm]

/-- R81: the four fields are the whole word. -/
theorem eq_commandWord_iff {op : BitVec 4} {len : BitVec 16} :
    w = commandWord op len ↔ rsv0Field w = 0 ∧ rsv1Field w = 0 ∧ opcodeField w = op ∧ lenField w = len := by
  have hop := op.isLt
  have hlen := len.isLt
  simp only [BitVec.toNat_eq, commandWord_toNat, rsv0Field_toNat, rsv1Field_toNat, opcodeField_toNat, lenField_toNat,
    BitVec.ofNat_eq_ofNat, BitVec.toNat_ofNat, Nat.zero_mod]
  omega

/-! ### Decoding and encoding are inverse -/

theorem noOperand_eq_command_iff {len : BitVec 16} {j : Instr} : noOperand len j = .command i ↔ len = 0 ∧ j = i := by
  unfold noOperand
  split <;> simp_all

/-- R84, read backwards: what the fields of a word are that decodes to a command. -/
theorem fields_of_decode (h : decode w = .command i) :
    i.wf = true ∧ rsv0Field w = 0 ∧ rsv1Field w = 0 ∧ opcodeField w = i.opcode ∧ lenField w = i.lenBits := by
  unfold decode at h
  split at h
  case isTrue => cases h
  case isFalse hrsv =>
    simp only [ne_eq, not_or, not_not] at hrsv
    obtain ⟨h0, h1⟩ := hrsv
    split at h
    case h_1 hop | h_3 hop | h_5 hop | h_6 hop =>
      obtain ⟨hlen, rfl⟩ := noOperand_eq_command_iff.1 h
      exact ⟨rfl, h0, h1, hop, hlen⟩
    case h_2 hop | h_4 hop =>
      cases h
      exact ⟨decide_eq_true (lenField w).isLt, h0, h1, hop, by simp [Instr.lenBits]⟩
    case h_7 => cases h

theorem decode_of_fields (hwf : i.wf = true) (h0 : rsv0Field w = 0) (h1 : rsv1Field w = 0)
    (hop : opcodeField w = i.opcode) (hlen : lenField w = i.lenBits) : decode w = .command i := by
  have hrsv : ¬ (rsv0Field w ≠ 0 ∨ rsv1Field w ≠ 0) := by simp [h0, h1]
  rw [decode, if_neg hrsv, hop, hlen]
  cases i with
  | nop | step | genContinue | abort => rfl
  | loadSeed len | genSeeded len =>
    have hfits : len < 65536 := of_decide_eq_true hwf
    simp [Instr.opcode, Instr.lenBits, hfits]

theorem decode_loadSeed (h0 : rsv0Field w = 0) (h1 : rsv1Field w = 0) (hop : opcodeField w = 0x1) :
    decode w = .command (.loadSeed (lenField w).toNat) :=
  decode_of_fields (decide_eq_true (lenField w).isLt) h0 h1 hop (by simp [Instr.lenBits])

theorem decode_genSeeded (h0 : rsv0Field w = 0) (h1 : rsv1Field w = 0) (hop : opcodeField w = 0x3) :
    decode w = .command (.genSeeded (lenField w).toNat) :=
  decode_of_fields (decide_eq_true (lenField w).isLt) h0 h1 hop (by simp [Instr.lenBits])

theorem encode_eq_iff :
    encode i = w ↔ rsv0Field w = 0 ∧ rsv1Field w = 0 ∧ opcodeField w = i.opcode ∧ lenField w = i.lenBits := by
  rw [eq_comm, encode, eq_commandWord_iff]

/-- R81 to R84: the words of commands are the encodings of the well-formed commands. -/
theorem decode_eq_command_iff : decode w = .command i ↔ i.wf = true ∧ encode i = w := by
  rw [encode_eq_iff]
  exact ⟨fields_of_decode, fun ⟨hwf, h0, h1, hop, hlen⟩ => decode_of_fields hwf h0 h1 hop hlen⟩

/-! ### Reserved and illegal words (R86) -/

theorem Instr.opcode_not_reserved (i : Instr) : ¬ (0x5 ≤ i.opcode.toNat ∧ i.opcode.toNat ≤ 0xE) := by
  cases i <;> simp [Instr.opcode]

theorem Instr.lenBits_eq_zero (h : i.opcode.toNat ∈ [0x0, 0x2, 0x4, 0xF]) : i.lenBits = 0 := by
  cases i with
  | nop | step | genContinue | abort => rfl
  | loadSeed | genSeeded => simp [Instr.opcode] at h

/-- R86: the reserved opcodes, the set reserved bits, and LEN not 0 under a command without an operand. -/
def IllegalWord (w : Word) : Prop :=
  (0x5 ≤ w.toNat % 2 ^ 4 ∧ w.toNat % 2 ^ 4 ≤ 0xE) ∨ w.toNat / 2 ^ 4 % 2 ^ 4 ≠ 0 ∨ w.toNat / 2 ^ 24 ≠ 0 ∨
    (w.toNat / 2 ^ 8 % 2 ^ 16 ≠ 0 ∧ w.toNat % 2 ^ 4 ∈ [0x0, 0x2, 0x4, 0xF])

theorem not_illegalWord_of_decode (h : decode w = .command i) : ¬ IllegalWord w := by
  obtain ⟨-, h0, h1, hop, hlen⟩ := fields_of_decode h
  rw [IllegalWord, ← opcodeField_toNat, ← rsv0Field_toNat, ← lenField_toNat, ← rsv1Field_toNat, h0, h1, hop, hlen]
  rintro (hop | h0 | h1 | ⟨hlen, hop⟩)
  · exact i.opcode_not_reserved hop
  · exact h0 rfl
  · exact h1 rfl
  · exact hlen (congrArg BitVec.toNat (Instr.lenBits_eq_zero hop))

theorem IllegalWord.decode_bad (h : IllegalWord w) : ∃ why, decode w = .bad why := by
  cases hd : decode w with
  | bad why => exact ⟨why, rfl⟩
  | command i => exact absurd h (not_illegalWord_of_decode hd)

/-! ### The table of match and mask (R83) -/

@[simp] theorem opcodeField_and (v w : Word) : opcodeField (v &&& w) = opcodeField v &&& opcodeField w :=
  BitVec.extractLsb'_and

@[simp] theorem rsv0Field_and (v w : Word) : rsv0Field (v &&& w) = rsv0Field v &&& rsv0Field w := BitVec.extractLsb'_and

@[simp] theorem lenField_and (v w : Word) : lenField (v &&& w) = lenField v &&& lenField w := BitVec.extractLsb'_and

@[simp] theorem rsv1Field_and (v w : Word) : rsv1Field (v &&& w) = rsv1Field v &&& rsv1Field w := BitVec.extractLsb'_and

/-- R83: the mask of a command leaves out LEN where it is an operand. -/
def Instr.mask : Instr → Word
  | .loadSeed _ | .genSeeded _ => 0xFFFFFFFFFF0000FF
  | .nop | .step | .genContinue | .abort => 0xFFFFFFFFFFFFFFFF

/-- The row of a command in R83's second table. -/
def Instr.row (i : Instr) : OpcodeRow := ⟨i.mnemonic, commandWord i.opcode 0, i.mask⟩

theorem mem_opcodeTable_iff {r : OpcodeRow} : r ∈ opcodeTable ↔ ∃ i : Instr, i.row = r := by
  constructor
  · simp only [opcodeTable, List.mem_cons, List.not_mem_nil, or_false]
    rintro (rfl | rfl | rfl | rfl | rfl | rfl)
    exacts [⟨.nop, rfl⟩, ⟨.loadSeed 0, rfl⟩, ⟨.step, rfl⟩, ⟨.genSeeded 0, rfl⟩, ⟨.genContinue, rfl⟩, ⟨.abort, rfl⟩]
  · rintro ⟨i, rfl⟩
    cases i <;> simp [opcodeTable, Instr.row, Instr.mnemonic, Instr.mask, Instr.opcode, commandWord]

theorem lenField_lengthMask : lenField 0xFFFFFFFFFF0000FF = 0 := by decide

/-- Every field but LEN lies under the mask of every command. -/
theorem Instr.mask_fields (i : Instr) :
    rsv0Field i.mask = BitVec.allOnes 4 ∧ rsv1Field i.mask = BitVec.allOnes 40 ∧ opcodeField i.mask = BitVec.allOnes 4 := by
  cases i <;> (simp only [Instr.mask]; decide)

theorem Instr.row_hits_iff : i.row.hits w = true ↔
    rsv0Field w = 0 ∧ rsv1Field w = 0 ∧ opcodeField w = i.opcode ∧ lenField w &&& lenField i.mask = 0 := by
  obtain ⟨h0, h1, hop⟩ := i.mask_fields
  simp only [OpcodeRow.hits, Instr.row, beq_iff_eq, eq_commandWord_iff, rsv0Field_and, rsv1Field_and, opcodeField_and,
    lenField_and, h0, h1, hop, BitVec.and_allOnes]

theorem row_hits_of_decode (h : decode w = .command i) : i.row.hits w = true := by
  obtain ⟨-, h0, h1, hop, hlen⟩ := fields_of_decode h
  refine Instr.row_hits_iff.2 ⟨h0, h1, hop, ?_⟩
  rw [hlen]
  cases i with
  | nop | step | genContinue | abort => rfl
  | loadSeed len | genSeeded len => exact (congrArg _ lenField_lengthMask).trans BitVec.and_zero

theorem decode_of_row_hits (h : i.row.hits w = true) : ∃ j, decode w = .command j ∧ j.row = i.row := by
  obtain ⟨h0, h1, hop, hlen⟩ := Instr.row_hits_iff.1 h
  cases i with
  | nop | step | genContinue | abort =>
    have hlen : lenField w = 0 := by rwa [← BitVec.and_allOnes (x := lenField w)]
    exact ⟨_, decode_of_fields rfl h0 h1 hop hlen, rfl⟩
  | loadSeed => exact ⟨_, decode_loadSeed h0 h1 hop, rfl⟩
  | genSeeded => exact ⟨_, decode_genSeeded h0 h1 hop, rfl⟩

theorem exists_decode_iff_hits : (∃ i, decode w = .command i) ↔ ∃ r ∈ opcodeTable, r.hits w = true := by
  constructor
  · rintro ⟨i, hd⟩
    exact ⟨i.row, mem_opcodeTable_iff.2 ⟨i, rfl⟩, row_hits_of_decode hd⟩
  · rintro ⟨r, hr, hhits⟩
    obtain ⟨i, rfl⟩ := mem_opcodeTable_iff.1 hr
    obtain ⟨j, hd, -⟩ := decode_of_row_hits hhits
    exact ⟨j, hd⟩

/-- A word decodes to one command, so it matches that command's row and no other. -/
theorem row_unique {r₁ r₂ : OpcodeRow} (h₁ : r₁ ∈ opcodeTable) (h₂ : r₂ ∈ opcodeTable) (hhits₁ : r₁.hits w = true)
    (hhits₂ : r₂.hits w = true) : r₁ = r₂ := by
  obtain ⟨i₁, rfl⟩ := mem_opcodeTable_iff.1 h₁
  obtain ⟨i₂, rfl⟩ := mem_opcodeTable_iff.1 h₂
  obtain ⟨j, hj, hrow₁⟩ := decode_of_row_hits hhits₁
  obtain ⟨k, hk, hrow₂⟩ := decode_of_row_hits hhits₂
  cases hj.symm.trans hk
  exact hrow₁.symm.trans hrow₂

end Sys2Proof

namespace Sys2Proof.Proofs

open Sys2Proof.Machine

/-- Settles O1: the fields of an encoded command are the command's (`decode_eq_command_iff`). -/
theorem decodeOfEncodeIsTheCommand : Obligations.DecodeOfEncodeIsTheCommand := fun _ h => decode_eq_command_iff.2 ⟨h, rfl⟩

/-- Settles O2, by the fields of a word that decodes to a command. -/
theorem encodeOfDecodeIsTheWord : Obligations.EncodeOfDecodeIsTheWord := fun _ _ => decode_eq_command_iff.1

/-- Settles O3, by the fields of the word where it is a command's, by `IllegalWord` where it is none, and by the row of each
command. -/
theorem decodeFollowsTheOpcodeMap : Obligations.DecodeFollowsTheOpcodeMap := by
  intro w op rsv0 len rsv1 isBad
  have hlong : len ≠ 0 → op ∈ [0x0, 0x2, 0x4, 0xF] → isBad := fun hlen hop =>
    IllegalWord.decode_bad (.inr (.inr (.inr ⟨hlen, hop⟩)))
  refine ⟨fun hrsv => ?reserved, fun h0 h1 => ?legal, exists_decode_iff_hits, fun _ h₁ _ h₂ => row_unique h₁ h₂⟩
  case reserved => exact IllegalWord.decode_bad (.inr (hrsv.imp_right .inl))
  case legal =>
    have hr0 : rsv0Field w = 0 := BitVec.eq_of_toNat_eq ((rsv0Field_toNat w).trans h0)
    have hr1 : rsv1Field w = 0 := BitVec.eq_of_toNat_eq ((rsv1Field_toNat w).trans h1)
    have hopcode : ∀ c : BitVec 4, op = c.toNat → opcodeField w = c := fun c hop =>
      BitVec.eq_of_toNat_eq ((opcodeField_toNat w).trans hop)
    have hlength : len = 0 → lenField w = 0 := fun hlen => BitVec.eq_of_toNat_eq ((lenField_toNat w).trans hlen)
    have hlen_eq : (lenField w).toNat = len := lenField_toNat w
    exact ⟨
      fun hop hlen => decode_of_fields rfl hr0 hr1 (hopcode 0x0 hop) (hlength hlen),
      fun hop hlen => hlong hlen (by simp [hop]),
      fun hop => hlen_eq ▸ decode_loadSeed hr0 hr1 (hopcode 0x1 hop),
      fun hop hlen => decode_of_fields rfl hr0 hr1 (hopcode 0x2 hop) (hlength hlen),
      fun hop hlen => hlong hlen (by simp [hop]),
      fun hop => hlen_eq ▸ decode_genSeeded hr0 hr1 (hopcode 0x3 hop),
      fun hop hlen => decode_of_fields rfl hr0 hr1 (hopcode 0x4 hop) (hlength hlen),
      fun hop hlen => hlong hlen (by simp [hop]),
      fun hop hlen => decode_of_fields rfl hr0 hr1 (hopcode 0xF hop) (hlength hlen),
      fun hop hlen => hlong hlen (by simp [hop]),
      fun hlow hhigh => IllegalWord.decode_bad (.inl ⟨hlow, hhigh⟩)⟩

/-- Settles O4: an illegal word decodes to BAD, and BAD fails with BAD_COMMAND. -/
theorem reservedWordsOnlySetBadCommand : Obligations.ReservedWordsOnlySetBadCommand := by
  intro w s hw
  obtain ⟨why, hbad⟩ := IllegalWord.decode_bad hw
  exact ⟨⟨why, hbad⟩, execute_bad hbad⟩

/-- Settles O5, word by word. -/
theorem writtenOutWordsDecode : Obligations.WrittenOutWordsDecode := by
  unfold Obligations.WrittenOutWordsDecode
  decide

end Sys2Proof.Proofs

/-! ## The xoshiro256++ datapath and STEP (spec/40_prng_engine.md R100 to R107)

The rotation of R100 is the library's. One state transition is a chain of xors, each of which the new words let one read
back, with two mixings on the way: a rotation, undone by the inverse rotation law, and a word's xor with its own left shift,
undone by `unmix`; so the transition has an inverse, `Prng.prev`. -/

namespace Sys2Proof.Machine

/-! ### The rotation -/

theorem rotl64_eq_rotateLeft (x : Word) {k : Nat} (hk : k < 64) : rotl64 x k = x.rotateLeft k := by
  rw [rotl64, BitVec.rotateLeft_def, Nat.mod_eq_of_lt hk]

theorem rotl64_toNat (x : Word) {k : Nat} (hk : k < 64) :
    (rotl64 x k).toNat = x.toNat * 2 ^ k % 2 ^ 64 ||| x.toNat / 2 ^ (64 - k) := by
  rw [rotl64_eq_rotateLeft x hk, BitVec.toNat_rotateLeft, Nat.mod_eq_of_lt hk, Nat.shiftLeft_eq,
    Nat.shiftRight_eq_div_pow]

/-- Bit i of a rotated word: the low k bits are the old high ones, and the others moved up by k. -/
theorem rotl64_getElem (x : Word) {k i : Nat} (hk : k < 64) (hi : i < 64) :
    (rotl64 x k)[i] = if _ : i < k then x[64 - k + i] else x[i - k] := by
  simp only [rotl64_eq_rotateLeft x hk, BitVec.getElem_rotateLeft, Nat.mod_eq_of_lt hk]

theorem rotl64_rotl64_sub (x : Word) {k : Nat} (h1 : 1 ≤ k) (h63 : k ≤ 63) : rotl64 (rotl64 x k) (64 - k) = x := by
  ext i hi
  rw [rotl64_getElem _ (by omega) hi]
  split
  · next hlow =>
    rw [rotl64_getElem x (by omega), dif_neg (by omega)]
    congr 1
    omega
  · next hhigh =>
    rw [rotl64_getElem x (by omega), dif_pos (by omega)]
    congr 1
    omega

/-! ### A word's xor with its own left shift -/

/-- The xor of a word with its left shift by n. -/
def mixShift (n : Nat) (x : Word) : Word := x ^^^ x <<< n

theorem mixShift_mixShift_self (n : Nat) (x : Word) : mixShift n (mixShift n x) = mixShift (n + n) x := by
  simp only [mixShift, BitVec.shiftLeft_xor_distrib, BitVec.shiftLeft_add, BitVec.xor_assoc, xor_cancel_left]

theorem mixShift_of_le {n : Nat} (h : 64 ≤ n) (x : Word) : mixShift n x = x := by
  rw [mixShift, BitVec.shiftLeft_eq_zero h, BitVec.xor_zero]

/-- Four mixings double the shift of 17 to 34 and to 68, past the word's width. -/
theorem mixShift_four (x : Word) :
    mixShift Config.shiftT (mixShift Config.shiftT (mixShift Config.shiftT (mixShift Config.shiftT x))) = x := by
  rw [mixShift_mixShift_self, mixShift_mixShift_self, mixShift_mixShift_self, mixShift_of_le (by decide)]

/-- Undoes `mixShift Config.shiftT`, from either side (`mixShift_four`). -/
def unmix (y : Word) : Word := mixShift Config.shiftT (mixShift Config.shiftT (mixShift Config.shiftT y))

theorem unmix_mixShift (x : Word) : unmix (mixShift Config.shiftT x) = x := mixShift_four x

theorem mixShift_unmix (y : Word) : mixShift Config.shiftT (unmix y) = y := mixShift_four y

/-! ### The state transition -/

/-- The state before the one given. Of the words of R101, `a3` is read off `n3`, then `s0` off `n0`; `s1` is read off
`n1 xor n2`, which is `mixShift 17 s1`, and `a2` off `n1`; last `s2` and `s3` off `a2` and `a3`. -/
def Prng.prev (q : Prng) : Prng :=
  let a3 := rotl64 q.s3 (64 - Config.rotB)
  let s0 := q.s0 ^^^ a3
  let s1 := unmix (q.s1 ^^^ q.s2)
  let a2 := s1 ^^^ q.s1
  ⟨s0, s1, a2 ^^^ s0, a3 ^^^ s1⟩

theorem Prng.next_s1_xor_s2 (p : Prng) : p.next.s1 ^^^ p.next.s2 = mixShift Config.shiftT p.s1 := by
  simp only [Prng.next, mixShift]
  rw [BitVec.xor_assoc, xor_cancel_left]

theorem Prng.prev_next (p : Prng) : p.next.prev = p := by
  have ha3 : rotl64 p.next.s3 (64 - Config.rotB) = p.s3 ^^^ p.s1 := rotl64_rotl64_sub _ (by decide) (by decide)
  have hs0 : p.next.s0 ^^^ (p.s3 ^^^ p.s1) = p.s0 := xor_cancel_right _ _
  have hs1 : unmix (p.next.s1 ^^^ p.next.s2) = p.s1 := by rw [Prng.next_s1_xor_s2, unmix_mixShift]
  have ha2 : p.s1 ^^^ p.next.s1 = p.s2 ^^^ p.s0 := xor_cancel_left _ _
  simp only [Prng.prev, ha3, hs0, hs1, ha2, xor_cancel_right]

theorem Prng.next_prev (q : Prng) : q.prev.next = q := by
  have ha2 : q.prev.s2 ^^^ q.prev.s0 = q.prev.s1 ^^^ q.s1 := xor_cancel_right _ _
  have ha3 : q.prev.s3 ^^^ q.prev.s1 = rotl64 q.s3 (64 - Config.rotB) := xor_cancel_right _ _
  have hn0 : q.prev.s0 ^^^ rotl64 q.s3 (64 - Config.rotB) = q.s0 := xor_cancel_right _ _
  have hn2 : q.prev.s1 ^^^ q.s1 ^^^ q.prev.s1 <<< Config.shiftT = q.s2 := by
    have hmix : mixShift Config.shiftT q.prev.s1 = q.s1 ^^^ q.s2 := mixShift_unmix _
    rw [BitVec.xor_comm q.prev.s1, BitVec.xor_assoc, ← mixShift, hmix, xor_cancel_left]
  have hn3 : rotl64 (rotl64 q.s3 (64 - Config.rotB)) Config.rotB = q.s3 :=
    rotl64_rotl64_sub q.s3 (k := 64 - Config.rotB) (by decide) (by decide)
  simp only [Prng.next, ha2, ha3, hn0, hn2, hn3, xor_cancel_left]

/-! ### The all-zero state -/

theorem Prng.next_zero : (Prng.mk 0 0 0 0).next = ⟨0, 0, 0, 0⟩ := by decide

theorem Prng.after_zero (n : Nat) : (Prng.mk 0 0 0 0).after n = ⟨0, 0, 0, 0⟩ := by
  induction n with
  | zero => rfl
  | succ n ih => rw [Prng.after, ih, Prng.next_zero]

theorem Prng.out_zero : (Prng.mk 0 0 0 0).out = 0 := by decide

/-! ### The checks of R85, case by case -/

section

variable {s : State} {k : Host.Outcome State Fault Refusal}

theorem whenIdle_of_idle (h : s.PHASE = .idle) : whenIdle s k = k := if_pos h

theorem whenIdle_of_busy (h : s.PHASE ≠ .idle) : whenIdle s k = .next (s.fail .busy) := if_neg h

theorem whenSeeded_of_seeded (h : s.SEEDED = true) : whenSeeded s k = k := if_pos h

theorem whenSeeded_of_not_seeded (h : s.SEEDED = false) : whenSeeded s k = .next (s.fail .notSeeded) :=
  if_neg (Bool.eq_false_iff.1 h)

end

end Sys2Proof.Machine

namespace Sys2Proof.Proofs

open Sys2Proof.Machine

/-- Settles O32: the formula by `rotl64_toNat`, the inverse law bit by bit (`rotl64_rotl64_sub`). -/
theorem rotationHasItsInverse : Obligations.RotationHasItsInverse := fun x k h1 h63 =>
  ⟨by rw [← rotl64_toNat x (by omega), BitVec.ofNat_toNat, BitVec.setWidth_eq], rotl64_rotl64_sub x h1 h63⟩

/-- Settles O34: `Prng.prev` is the inverse, on either side. -/
theorem stateTransitionIsABijection : Obligations.StateTransitionIsABijection :=
  Function.bijective_iff_has_inverse.2 ⟨Prng.prev, Prng.prev_next, Prng.next_prev⟩

/-- Settles O33, by induction on the number of draws (`Prng.after_zero`). -/
theorem zeroStateStaysZero : Obligations.ZeroStateStaysZero :=
  ⟨Prod.ext Prng.out_zero Prng.next_zero, fun n => ⟨Prng.after_zero n, by rw [Prng.draw, Prng.after_zero, Prng.out_zero]⟩⟩

/-- Settles O12, by the checks of R85 in their order and then the draw; the words that the statement writes out are
`Prng.next` and `Prng.out` by definition. -/
theorem stepDrawsOnce : Obligations.StepDrawsOnce := by
  refine ⟨by decide, fun s s0 s1 s2 s3 hidle hseeded hS => ?drawn, fun s hidle hseeded => ?notSeeded,
    fun s hbusy => whenIdle_of_busy hbusy⟩
  case drawn =>
    calc exec .step s
      _ = whenSeeded s (withDraw s fun _ t => .next (t.setErr .none)) := whenIdle_of_idle hidle
      _ = withDraw s (fun _ t => .next (t.setErr .none)) := whenSeeded_of_seeded hseeded
      _ = .next ((s.drawn ⟨s0, s1, s2, s3⟩).setErr .none) := withDraw_some hS
  case notSeeded => exact (whenIdle_of_idle hidle).trans (whenSeeded_of_not_seeded hseeded)

end Sys2Proof.Proofs

/-! ## The seed loader (spec/41_seed_loader.md R120 to R125)

The host stages the seed by writes to the seed registers, and LOAD_SEED loads what is staged. Byte t of a packed word is
the seed byte that was put there, and a word's value is the sum of its bytes; so the loaded words are R121's sums. -/

namespace Sys2Proof

/-! ### LEN, cut to its 16 bits (R82, R125) -/

/-- The encoder's cut: only a length's low 16 bits reach the field. -/
theorem ofNat_len_mod (n : Nat) : BitVec.ofNat 16 (n % 2 ^ 16) = BitVec.ofNat 16 n :=
  BitVec.eq_of_toNat_eq (Nat.mod_mod n (2 ^ 16))

theorem decode_encode_loadSeed (n : Nat) : decode (encode (.loadSeed n)) = .command (.loadSeed (n % 2 ^ 16)) :=
  decode_eq_command_iff.2
    ⟨decide_eq_true (Nat.mod_lt n (by decide)), congrArg (commandWord 0x1) (ofNat_len_mod n)⟩

theorem decode_encode_genSeeded (n : Nat) : decode (encode (.genSeeded n)) = .command (.genSeeded (n % 2 ^ 16)) :=
  decode_eq_command_iff.2
    ⟨decide_eq_true (Nat.mod_lt n (by decide)), congrArg (commandWord 0x3) (ofNat_len_mod n)⟩

end Sys2Proof

namespace Sys2Proof.Machine

variable {s : State}

/-- R125: the saturated length fits LEN. -/
theorem declaredLen_mod (n : Nat) : declaredLen n % 2 ^ 16 = min n 0xFFFF :=
  Nat.mod_eq_of_lt (Nat.lt_succ_of_le (Nat.min_le_right n 0xFFFF))

theorem declaredLen_eq_seedBytes_iff (n : Nat) : declaredLen n = 32 ↔ n = 32 := by
  rw [declaredLen]
  omega

/-! ### LOAD_SEED, check by check (R85, R121 to R123) -/

theorem whenLength_of_ne {len : Nat} {k : Host.Outcome State Fault Refusal} (h : len ≠ 32) :
    whenLength len s k = .next (s.fail .invalidSeedLength) := if_neg h

theorem exec_loadSeed_of_idle (h : s.PHASE = .idle) : exec (.loadSeed 32) s = .next (s.seedLoad.setErr .none) :=
  whenIdle_of_idle h

/-! ### The bytes of a packed seed (R120, R121) -/

theorem byteOf_byteAt_self (b : Byte) {t : Nat} (ht : t < 8) : byteOf (byteAt b t) t = b :=
  extractLsb'_fieldAt b (by omega)

theorem byteOf_byteAt_of_ne (b : Byte) {t t' : Nat} (hne : t ≠ t') : byteOf (byteAt b t) t' = 0 :=
  extractLsb'_fieldAt_of_disjoint b (by omega)

theorem byteOf_or (v w : Word) (t : Nat) : byteOf (v ||| w) t = byteOf v t ||| byteOf w t := BitVec.extractLsb'_or

theorem byteOf_packSeed (b : Vector Byte 32) (w : Fin 4) (t : Fin 8) :
    byteOf (packSeed b w) t.val = b[8 * w.val + t.val] := by
  simp only [packSeed, byteOf_or]
  fin_cases t <;> simp [byteOf_byteAt_self, byteOf_byteAt_of_ne]

/-- R56: a word's value, byte by byte. -/
theorem toNat_eq_sum_byteOf (v : Word) : v.toNat = ∑ t : Fin 8, (byteOf v t.val).toNat * 2 ^ (8 * t.val) := by
  have hv := v.isLt
  simp [Fin.sum_univ_succ, byteOf, Nat.shiftRight_eq_div_pow]
  omega

theorem packSeed_toNat (b : Vector Byte 32) (w : Fin 4) :
    (packSeed b w).toNat = ∑ t : Fin 8, b[8 * w.val + t.val].toNat * 2 ^ (8 * t.val) := by
  simp only [toNat_eq_sum_byteOf (packSeed b w), byteOf_packSeed]

/-- R88: what SEEDB leaves in the seed registers. -/
def packedSeed (b : Vector Byte 32) : Vector Word 4 := Vector.ofFn (packSeed b)

theorem seedByte_packedSeed (b : Vector Byte 32) (k : Fin 32) : seedByte (packedSeed b) k = b[k.val] := by
  have hk : 8 * (k.val / 8) + k.val % 8 = k.val := Nat.div_add_mod k.val 8
  have hbyte := byteOf_packSeed b ⟨k.val / 8, by omega⟩ ⟨k.val % 8, by omega⟩
  simp only [hk] at hbyte
  simpa [seedByte, packedSeed] using hbyte

theorem prngOfSeed_word (seed : Vector Word 4) (w : Fin 4) : (prngOfSeed seed).word w = seed[w.val] := by
  fin_cases w <;> rfl

/-! ### Staging: the host writes the seed registers (R59, R120) -/

theorem step_of_seedWrite {w : Fin 4} {v : Word} (h : hostNow s (wrOp (Reg.seed w).offset v)) :
    step s = .next ((s.accessed .done).setSeed w v) :=
  (step_of_hostNow h).trans (memWrite_seed _ w v)

/-- Writes to the seed registers, in this order. -/
def seedWrites (ws : List (Fin 4 × Word)) : List HostOp := ws.map fun x => wrOp (Reg.seed x.1).offset x.2

/-- The seed registers after these writes. -/
def stageAll (seed : Vector Word 4) (ws : List (Fin 4 × Word)) : Vector Word 4 :=
  ws.foldl (fun m x => m.set x.1.val x.2) seed

theorem run_seedWrites {ws : List (Fin 4 × Word)} {rest : List HostOp} {ts : List Agent}
    (hhost : s.host = seedWrites ws ++ rest) (hturns : s.turns = List.replicate ws.length .host ++ ts) :
    run ws.length s = .next { s with
      SEED := stageAll s.SEED ws, host := rest, turns := ts, log := List.replicate ws.length .done ++ s.log } := by
  induction ws generalizing s with
  | nil =>
    cases hhost
    cases hturns
    rfl
  | cons x ws ih =>
    obtain ⟨w, v⟩ := x
    have hnow : hostNow s (wrOp (Reg.seed w).offset v) := ⟨nextAgent_of_turns hturns, by rw [hhost]; rfl⟩
    have hlog : List.replicate (ws.length + 1) Response.done ++ s.log =
        List.replicate ws.length .done ++ .done :: s.log := by
      rw [List.replicate_succ', List.append_assoc, List.singleton_append]
    rw [List.length_cons, run, step_of_seedWrite hnow, hlog]
    exact ih (congrArg List.tail hhost) (congrArg List.tail hturns)

theorem stageAll_eq_ofFn (seed : Vector Word 4) (v : Fin 4 → Word) :
    stageAll seed [(0, v 0), (1, v 1), (2, v 2), (3, v 3)] = Vector.ofFn v := by
  ext i hi
  obtain rfl | rfl | rfl | rfl : i = 0 ∨ i = 1 ∨ i = 2 ∨ i = 3 := by omega
  all_goals simp [stageAll]

/-- R88: SEEDB takes four steps of the host, after which the seed registers hold the packed seed. -/
theorem run_seedb {b : Vector Byte 32} {rest : List HostOp} {ts : List Agent}
    (hhost : s.host = (Stmt.seedb b).expand ++ rest) (hturns : s.turns = List.replicate 4 .host ++ ts) :
    run 4 s = .next { s with
      SEED := packedSeed b, host := rest, turns := ts, log := List.replicate 4 .done ++ s.log } := by
  rw [packedSeed, ← stageAll_eq_ofFn s.SEED (packSeed b)]
  exact run_seedWrites (ws := [(0, packSeed b 0), (1, packSeed b 1), (2, packSeed b 2), (3, packSeed b 3)])
    hhost hturns

/-- R123: the step in which the host's CMD LOAD_SEED meets an idle XMG. -/
theorem step_of_loadSeed {rest : List HostOp} (hidle : s.PHASE = .idle) (hagent : nextAgent s = .host)
    (hhost : s.host = Stmt.loadSeed.expand ++ rest) :
    step s = .next ((s.accessed .done).seedLoad.setErr .none) := by
  have hnow : commandNow s (.loadSeed 32) := ⟨_, decode_encode_loadSeed 32, hagent, by rw [hhost]; rfl⟩
  exact (step_of_commandNow hnow).trans (exec_loadSeed_of_idle hidle)

end Sys2Proof.Machine

namespace Sys2Proof.Proofs

open Sys2Proof.Machine

/-- Settles O44: four steps stage the packed seed (`run_seedb`), the fifth loads it (`step_of_loadSeed`); its words and
bytes are those of `packSeed`. -/
theorem seedBytesLoadLittleEndian : Obligations.SeedBytesLoadLittleEndian := by
  intro s b rest ts hidle hhost hturns
  have hstaged := run_seedb (hhost.trans (List.append_assoc ..)) hturns
  have hloaded := run_succ hstaged (step_of_loadSeed hidle rfl rfl)
  refine ⟨_, prngOfSeed (packedSeed b), hloaded, rfl, rfl, rfl, fun w => ?word, seedByte_packedSeed b,
    rfl, rfl, rfl, rfl, hidle, rfl, rfl⟩
  case word =>
    rw [prngOfSeed_word, packedSeed, Vector.getElem_ofFn]
    exact packSeed_toNat b w

/-- Settles O6: what comes back from an encoded length is its low 16 bits, which is the saturated length itself, and 32
for the length 65568. -/
theorem saturatedLengthNeverAliases : Obligations.SaturatedLengthNeverAliases := by
  refine ⟨fun n => ⟨?loadSeed, ?genSeeded, declaredLen_eq_seedBytes_iff n⟩, decode_encode_loadSeed 65568⟩
  case loadSeed => rw [decode_encode_loadSeed, declaredLen_mod]
  case genSeeded => rw [decode_encode_genSeeded, declaredLen_mod]

/-- Settles O11, by the checks of R85 in their order; the words that the statement writes out are `prngOfSeed`'s by
definition. -/
theorem loadSeedLoadsTheStagedSeed : Obligations.LoadSeedLoadsTheStagedSeed :=
  ⟨by decide, fun _ => exec_loadSeed_of_idle,
    fun _ _ hidle hlen => (whenIdle_of_idle hidle).trans (whenLength_of_ne hlen), fun _ _ => whenIdle_of_busy⟩

end Sys2Proof.Proofs

/-! ## A running generation and the host (spec/42_matrix_generator.md R148; spec/20_memory.md R60)

The generator neither reads nor writes SEED, ERR and the host's side of the model; so its micro-step commutes with
replacing them (`engineStep_withHostSide`), and of a busy XMG a host operation but ABORT and reset replaces nothing else. -/

namespace Sys2Proof.Machine

variable {s t u : State}

/-! ### What the engine does not touch -/

/-- The generator of `s`, with SEED, ERR and the model's own fields of the host's side as they are in `t`. -/
def State.withHostSide (s t : State) : State :=
  { s with SEED := t.SEED, ERR := t.ERR, host := t.host, turns := t.turns, log := t.log }

theorem SameGenerator.withHostSide (s t : State) : SameGenerator s (s.withHostSide t) := by constructor <;> rfl

theorem SameGenerator.eq_withHostSide (h : SameGenerator s t) : t = s.withHostSide t := by
  obtain ⟨hS, hOUT, hMAT, hSEEDED, hOUT_VALID, hMATRIX_VALID, hLAST_RANK, hATTEMPTS, hPHASE, hROW, hBLK, htable⟩ := h
  simp only [State.withHostSide, ← hS, ← hOUT, ← hMAT, ← hSEEDED, ← hOUT_VALID, ← hMATRIX_VALID, ← hLAST_RANK,
    ← hATTEMPTS, ← hPHASE, ← hROW, ← hBLK, ← htable]

theorem State.advance_withHostSide (s t : State) : (s.withHostSide t).advance = s.advance.withHostSide t := by
  unfold State.advance State.withHostSide
  split_ifs <;> rfl

theorem State.judge_withHostSide (s t : State) (r : BitVec 7) :
    (s.withHostSide t).judge r = (s.judge r).withHostSide t := by
  simp only [State.judge]
  split_ifs <;> rfl

/-- R142: what FILL leaves where S holds `p`. -/
abbrev State.fillFrom (s : State) (p : Prng) : State := ((s.drawn p).store p.out).advance

theorem engineStep_of_fill_drawn {p : Prng} (hp : s.PHASE = .fill) (hS : s.S = some p) :
    engineStep s = .next (s.fillFrom p) :=
  (engineStep_of_fill hp).trans (withDraw_some hS)

/-- R143: CHECK, where the rank port answers `r`. -/
theorem engineStep_of_check_answered {a : Mat64} {r : BitVec 7} (hp : s.PHASE = .check) (hM : snapshot s.MAT = some a)
    (hr : rankFn s.rankTable a = r) (hl : r.toNat ≤ 64) : engineStep s = .next (s.judge r) :=
  (engineStep_of_check hp).trans (checkStep_answered hM hr hl)

/-- R16, R148: the engine's step is the same whatever stands on the host's side. -/
theorem engineStep_withHostSide (t : State) (h : engineStep s = .next u) :
    engineStep (s.withHostSide t) = .next (u.withHostSide t) := by
  obtain ⟨hp, rfl⟩ | ⟨p, hp, hS, rfl⟩ | ⟨a, hp, hM, hl, rfl⟩ := engineStep_next h
  · exact engineStep_of_idle hp
  · rw [← State.advance_withHostSide]
    exact engineStep_of_fill_drawn (s := s.withHostSide t) hp hS
  · rw [← State.judge_withHostSide]
    exact engineStep_of_check_answered (s := s.withHostSide t) hp hM rfl hl

/-- The engine's step leaves the host's side as it is. -/
theorem engineStep_hostSide (h : engineStep s = .next t) : t.withHostSide s = t :=
  (Host.Outcome.next.inj (h.symm.trans (engineStep_withHostSide s h))).symm

/-- R148: where two states share a generation, the engine's step from the one gives what it gives from the other. -/
theorem SameGenerator.step_of_engineNow {s' : State} (h : SameGenerator s t) (hnow : engineNow t)
    (hs : engineStep s = .next s') : ∃ t', step t = .next t' ∧ SameGenerator s' t' := by
  rw [step_of_engine_next hnow, (h.trans (.takeTurn t)).eq_withHostSide]
  exact ⟨_, engineStep_withHostSide t.takeTurn hs, .withHostSide s' t.takeTurn⟩

/-! ### What the host does to a busy XMG -/

theorem memRead_of_busy (hb : s.PHASE ≠ .idle) (off : Offset) (size : Nat) : ∃ r, memRead s off size = .ok r := by
  unfold memRead
  split
  · split
    · next r _ =>
      cases r with
      | cmd | status | attempts | seed => exact ⟨_, rfl⟩
      | out | s | matw => exact ⟨_, guarded_busErr (.inl hb)⟩
    · exact ⟨_, rfl⟩
  · exact ⟨_, rfl⟩

theorem withRead_of_busy (hb : s.PHASE ≠ .idle) (off : Offset) (size : Nat) {k : Response → State → State}
    (hk : ∀ r, SameGenerator (s.record r) (k r (s.record r))) :
    ∃ t, withRead s off size k = .next t ∧ SameGenerator s t := by
  obtain ⟨r, hr⟩ := memRead_of_busy hb off size
  exact ⟨_, withRead_ok hr, SameGenerator.trans (by constructor <;> rfl) (hk r)⟩

theorem exec_of_busy {i : Instr} (hb : s.PHASE ≠ .idle) (hi : i ≠ .abort) :
    ∃ t, exec i s = .next t ∧ SameGenerator s t := by
  cases i with
  | nop => exact ⟨s, rfl, .refl s⟩
  | loadSeed | step | genSeeded | genContinue => exact ⟨_, whenIdle_of_busy hb, .fail s _⟩
  | abort => exact absurd rfl hi

theorem execute_of_busy {w : Word} (hb : s.PHASE ≠ .idle) (hw : decode w ≠ .command .abort) :
    ∃ t, execute w s = .next t ∧ SameGenerator s t := by
  cases hd : decode w with
  | command i => rw [execute_command hd]; exact exec_of_busy hb fun hi => hw (hi ▸ hd)
  | bad why => exact ⟨_, execute_bad hd, .fail s _⟩

theorem memWrite_of_busy {off : Offset} {size : Nat} {v : Word} (hb : s.PHASE ≠ .idle)
    (hv : off = 0x000 → size = 8 → decode v ≠ .command .abort) :
    ∃ t, memWrite s off size v = .next t ∧ SameGenerator s t := by
  have hrecord (r : Response) : SameGenerator s (s.record r) := by constructor <;> rfl
  obtain ⟨ha, hr, he⟩ | ⟨w, -, -, he⟩ | he := memWrite_cases s off size v
  · obtain ⟨t, ht, hs⟩ := execute_of_busy (s := s.record .done) hb (hv (regAt_eq_cmd hr) (accessOk_iff.1 ha).1)
    exact ⟨t, he.trans ht, (hrecord _).trans hs⟩
  · exact ⟨_, he, (hrecord _).trans (.setSeed _ w v)⟩
  · exact ⟨_, he, hrecord _⟩

/-- R60, R148: the host's operations that leave a running generation alone: all but ABORT and reset. -/
def HostOp.harmless (op : HostOp) : Prop := op ≠ .reset ∧ ∀ v, op = .write 0x000 8 v → decode v ≠ .command .abort

theorem hostOp_of_busy {op : HostOp} (hb : s.PHASE ≠ .idle) (hop : op.harmless) :
    ∃ t, hostOp s op = .next t ∧ SameGenerator s t := by
  obtain ⟨hreset, habort⟩ := hop
  cases op with
  | read off size => exact withRead_of_busy hb off size fun r => by constructor <;> rfl
  | write off size v =>
    obtain ⟨t, ht, hs⟩ := memWrite_of_busy (s := s.popHost) (off := off) (size := size) (v := v) hb
      (by rintro rfl rfl; exact habort v rfl)
    exact ⟨t, ht, SameGenerator.trans (by constructor <;> rfl) hs⟩
  | poll off mask v => exact withRead_of_busy hb off 8 fun r => by split <;> constructor <;> rfl
  | reset => exact absurd rfl hreset

theorem hostNow.harmless {op : HostOp} (h : hostNow s op) (hr : ¬ hostNow s .reset) (ha : ¬ commandNow s .abort) :
    op.harmless := by
  constructor
  · rintro rfl
    exact hr h
  · rintro v rfl hd
    exact ha ⟨v, hd, h⟩

/-- R148: a step of the host but ABORT and reset completes, and leaves a running generation alone. -/
theorem hostStep_of_busy (hb : s.PHASE ≠ .idle) (hn : nextAgent s = .host) (hr : ¬ hostNow s .reset)
    (ha : ¬ commandNow s .abort) : ∃ t, step s = .next t ∧ SameGenerator s t := by
  cases hh : s.host with
  | nil => exact ⟨_, (step_of_host_next hn).trans (hostStep_of_no_host hh), .takeTurn s⟩
  | cons op rest =>
    have hnow : hostNow s op := ⟨hn, by rw [hh]; rfl⟩
    obtain ⟨t, ht, hs⟩ := hostOp_of_busy (s := s.takeTurn) hb (hnow.harmless hr ha)
    exact ⟨t, (step_of_hostNow hnow).trans ht, (SameGenerator.takeTurn s).trans hs⟩

end Sys2Proof.Machine

namespace Sys2Proof.Proofs

open Sys2Proof.Machine

/-- Settles O56: the host's step by what it can do to a busy XMG (`hostStep_of_busy`), the engine's because it does not
touch the host's side. -/
theorem everyStepKeepsTheSharedGeneration : Obligations.EveryStepKeepsTheSharedGeneration := by
  intro u t hsame hbusy
  refine ⟨fun hnow hr ha => ?host, fun hnow _ hu => hsame.step_of_engineNow hnow hu⟩
  case host =>
    obtain ⟨t', ht, hs⟩ := hostStep_of_busy (hsame.PHASE ▸ hbusy) hnow hr ha
    exact ⟨t', ht, hsame.trans hs⟩

end Sys2Proof.Proofs

/-! ## Runs of the engine alone, and other orders of steps (spec/20_memory.md R62) -/

namespace Sys2Proof.Machine

variable {s t u : State} {n m : Nat}

theorem run_succ_iff : run (n + 1) s = .next u ↔ ∃ t, run n s = .next t ∧ step t = .next u := by
  refine ⟨fun h => ?_, fun ⟨t, ht, hu⟩ => run_succ ht hu⟩
  induction n generalizing s with
  | zero =>
    rw [run] at h
    cases hs : step s with
    | next t => rw [hs] at h; exact ⟨s, rfl, hs.trans h⟩
    | fault f => rw [hs] at h; cases h
    | refused r => rw [hs] at h; cases h
  | succ n ih =>
    rw [run] at h ⊢
    cases hs : step s with
    | next t => rw [hs] at h; exact ih h
    | fault f => rw [hs] at h; cases h
    | refused r => rw [hs] at h; cases h

/-- n micro-steps of the engine lead from one state to another. -/
def EngineSteps : Nat → State → State → Prop
  | 0, s, u => u = s
  | n + 1, s, u => ∃ t, EngineSteps n s t ∧ engineStep t = .next u

theorem EngineSteps.succ (h : EngineSteps n s t) (h' : engineStep t = .next u) : EngineSteps (n + 1) s u := ⟨t, h, h'⟩

theorem engineSteps_add_iff : EngineSteps (n + m) s u ↔ ∃ t, EngineSteps n s t ∧ EngineSteps m t u := by
  induction m generalizing u with
  | zero =>
    refine ⟨fun h => ⟨u, h, rfl⟩, ?_⟩
    rintro ⟨t, ht, rfl⟩
    exact ht
  | succ m ih =>
    constructor
    · rintro ⟨v, hv, hu⟩
      obtain ⟨t, ht, hv⟩ := ih.1 hv
      exact ⟨t, ht, hv.succ hu⟩
    · rintro ⟨t, ht, v, hv, hu⟩
      exact (ih.2 ⟨t, ht, hv⟩).succ hu

/-- An idle engine stays idle. -/
theorem EngineSteps.busy (h : EngineSteps n s u) (hb : u.PHASE ≠ .idle) : s.PHASE ≠ .idle := by
  induction n generalizing u with
  | zero =>
    cases h
    exact hb
  | succ n ih =>
    obtain ⟨t, ht, hu⟩ := h
    refine ih ht fun hp => ?_
    cases (engineStep_of_idle hp).symm.trans hu
    exact hb hp

/-- A turn of the engine that was ordered is its micro-step, with one turn less to come. -/
theorem step_withEngineTurns_iff :
    step (s.withEngineTurns (m + 1)) = .next u ↔ ∃ t, engineStep s = .next t ∧ u = t.withEngineTurns m := by
  have hstep : step (s.withEngineTurns (m + 1)) = engineStep (s.withEngineTurns m) := step_of_engine_turn rfl
  have hforth {t : State} (ht : engineStep s = .next t) :
      engineStep (s.withEngineTurns m) = .next (t.withEngineTurns m) := by
    have hw := engineStep_withHostSide (s.withEngineTurns m) ht
    rw [← engineStep_hostSide ht]
    exact hw
  rw [hstep]
  constructor
  · intro hu
    have ht : engineStep s = .next (u.withHostSide s) := engineStep_withHostSide (s := s.withEngineTurns m) s hu
    exact ⟨_, ht, Host.Outcome.next.inj (hu.symm.trans (hforth ht))⟩
  · rintro ⟨t, ht, rfl⟩
    exact hforth ht

/-- n turns of the engine that were ordered are its n micro-steps; the turns ordered after them are still to come. -/
theorem run_withEngineTurns_iff :
    run n (s.withEngineTurns (n + m)) = .next u ↔ ∃ t, EngineSteps n s t ∧ u = t.withEngineTurns m := by
  induction n generalizing m u with
  | zero =>
    rw [Nat.zero_add]
    constructor
    · intro h
      cases h
      exact ⟨s, rfl, rfl⟩
    · rintro ⟨t, rfl, rfl⟩
      rfl
  | succ n ih =>
    rw [Nat.succ_add_eq_add_succ, run_succ_iff]
    constructor
    · rintro ⟨t', ht', hu⟩
      obtain ⟨t, ht, rfl⟩ := ih.1 ht'
      obtain ⟨v, hv, rfl⟩ := step_withEngineTurns_iff.1 hu
      exact ⟨v, ht.succ hv, rfl⟩
    · rintro ⟨v, ⟨t, ht, hv⟩, rfl⟩
      exact ⟨_, ih.2 ⟨t, ht, rfl⟩, step_withEngineTurns_iff.2 ⟨v, hv, rfl⟩⟩

theorem run_withEngineTurns (h : EngineSteps n s t) : run n (s.withEngineTurns n) = .next t :=
  run_withEngineTurns_iff (m := 0).2 ⟨t, h, rfl⟩

theorem EngineSteps.unique (h : EngineSteps n s t) (h' : EngineSteps n s u) : t = u :=
  Host.Outcome.next.inj ((run_withEngineTurns h).symm.trans (run_withEngineTurns h'))

/-- From a state with no turn ordered but the engine's n, n steps are the engine's. -/
theorem EngineSteps.of_run (h : run n { s with turns := List.replicate n .engine } = .next u) :
    EngineSteps n { s with turns := [] } u := by
  rw [← List.append_nil (List.replicate n Agent.engine)] at h
  obtain ⟨t, ht, rfl⟩ := (run_withEngineTurns_iff (s := { s with turns := [] }) (m := 0)).1 h
  exact ht

/-! ### The orders of steps that leave the generation alone (R148) -/

theorem exec_queues {i : Instr} (h : exec i s = .next t) : t.turns = s.turns ∧ t.host = s.host := by
  rcases exec_next h with rfl | ⟨e, rfl⟩ | ⟨-, -, rfl⟩ | ⟨-, -, rfl⟩ | ⟨p, -, -, -, -, rfl⟩ | ⟨-, -, rfl⟩ |
    ⟨-, -, -, rfl⟩ <;> exact ⟨rfl, rfl⟩

/-- R62: a step uses up one turn, and at most one operation of the host. -/
theorem step_queues (h : step s = .next t) : t.turns = s.turns.tail ∧ (t.host = s.host ∨ t.host = s.host.tail) := by
  rcases step_next h with ⟨-, he⟩ | ⟨-, -, rfl⟩ | ⟨_, _, _, -, -, rfl⟩ | ⟨_, mask, v, r, -, -, rfl⟩ |
    ⟨v, i, -, -, he⟩ | ⟨_, _, -, -, rfl⟩ | ⟨w, v, -, rfl⟩ | ⟨_, _, _, -, rfl⟩ | ⟨-, rfl⟩
  · rw [← engineStep_hostSide he]
    exact ⟨rfl, .inl rfl⟩
  · exact ⟨rfl, .inl rfl⟩
  · exact ⟨rfl, .inr rfl⟩
  · cases pollEnds mask v r with
    | true => exact ⟨rfl, .inr rfl⟩
    | false => exact ⟨rfl, .inl rfl⟩
  · obtain ⟨hturns, hhost⟩ := exec_queues he
    exact ⟨hturns, .inr hhost⟩
  all_goals exact ⟨rfl, .inr rfl⟩

/-- The host's operations to come leave a running generation alone. -/
def State.harmlessHost (s : State) : Prop := ∀ op ∈ s.host, op.harmless

theorem State.harmlessHost.of_step (h : s.harmlessHost) (hs : step s = .next t) : t.harmlessHost := by
  intro op hop
  obtain ⟨-, ht | ht⟩ := step_queues hs
  · exact h op (ht ▸ hop)
  · exact h op (List.mem_of_mem_tail (ht ▸ hop))

theorem State.harmlessHost.not_reset (h : s.harmlessHost) : ¬ hostNow s .reset := fun hr =>
  (h _ (List.mem_of_head? hr.2)).1 rfl

theorem State.harmlessHost.not_abort (h : s.harmlessHost) : ¬ commandNow s .abort := fun ⟨w, hd, hw⟩ =>
  (h _ (List.mem_of_head? hw.2)).2 w rfl hd

/-- `t` shares the generation of `u`, its host leaves that alone, and the turns `ts` are still to come. -/
structure Shares (u t : State) (ts : List Agent) : Prop extends SameGenerator u t where
  host : t.harmlessHost
  turns : t.turns = ts

/-- R148: a turn of the engine moves the generation that is shared, and a turn of the host does not. -/
theorem Shares.step {a : Agent} {ts : List Agent} (h : Shares s t (a :: ts)) (hb : s.PHASE ≠ .idle)
    (hs : EngineSteps ([a].count .engine) s u) : ∃ t', step t = .next t' ∧ Shares u t' ts := by
  obtain ⟨hsame, hhost, hturns⟩ := h
  have hnow := nextAgent_of_turns hturns
  suffices hstep : ∃ t', Machine.step t = .next t' ∧ SameGenerator u t' by
    obtain ⟨t', ht, hsame'⟩ := hstep
    exact ⟨t', ht, hsame', hhost.of_step ht, by rw [(step_queues ht).1, hturns, List.tail_cons]⟩
  cases a with
  | host =>
    cases hs
    obtain ⟨t', ht, hsame'⟩ := hostStep_of_busy (hsame.PHASE ▸ hb) hnow hhost.not_reset hhost.not_abort
    exact ⟨t', ht, hsame.trans hsame'⟩
  | engine =>
    obtain ⟨v, rfl, hu⟩ := hs
    exact hsame.step_of_engineNow hnow hu

/-- R148: any order of turns brings a running generation where the engine's turns alone bring it. -/
theorem Shares.run {ts rest : List Agent} (h : Shares s t (ts ++ rest)) (hs : EngineSteps (ts.count .engine) s u)
    (hb : u.PHASE ≠ .idle) : ∃ t', run ts.length t = .next t' ∧ Shares u t' rest := by
  induction ts using List.reverseRecOn generalizing u rest with
  | nil =>
    cases hs
    exact ⟨t, rfl, h⟩
  | append_singleton ts a ih =>
    rw [List.append_assoc] at h
    rw [List.count_append] at hs
    obtain ⟨v, hv, hlast⟩ := engineSteps_add_iff.1 hs
    obtain ⟨t₁, hrun, h₁⟩ := ih h hv (hlast.busy hb)
    obtain ⟨t', hstep, h'⟩ := h₁.step (hlast.busy hb) hlast
    rw [List.length_append]
    exact ⟨t', run_succ hrun hstep, h'⟩

end Sys2Proof.Machine

namespace Sys2Proof.Proofs

open Sys2Proof.Machine

/-- Settles O30, by induction on the order of turns (`Shares.run`); the last clause is one more turn of the engine. -/
theorem interleavingLeavesTheGenerationAlone : Obligations.InterleavingLeavesTheGenerationAlone := by
  intro s u ts hb hhost hrun hub
  have hu := EngineSteps.of_run hrun
  have hshares {turns turns' : List Agent} (h : turns = turns') :
      Shares { s with turns := [] } { s with turns := turns } turns' := ⟨by constructor <;> rfl, hhost, h⟩
  refine ⟨?busy, fun v hv => ?last⟩
  case busy =>
    obtain ⟨t, ht, h⟩ := (hshares (List.append_nil ts).symm).run hu hub
    exact ⟨t, ht, h.toSameGenerator⟩
  case last =>
    obtain ⟨u', hu', hlast⟩ := EngineSteps.of_run hv
    cases hu.unique hu'
    obtain ⟨t, ht, h⟩ := (hshares (rfl : ts ++ [Agent.engine] = _)).run hu hub
    obtain ⟨t', hstep, h'⟩ := h.step hub ⟨u, rfl, hlast⟩
    exact ⟨t', run_succ ht hstep, h'.toSameGenerator⟩

end Sys2Proof.Proofs

/-! ## Attempts (spec/42_matrix_generator.md R140 to R144)

What stands in the store and in S while an attempt runs is a function of how many of its draws have been made; FILL makes
the next one, and CHECK ends the attempt. -/

namespace Sys2Proof.Machine

variable {s t : State} {p : Prng} {n : Nat}

/-! ### Draws (R144) -/

theorem Prng.after_after (p : Prng) (m n : Nat) : (p.after m).after n = p.after (m + n) := by
  induction n with
  | zero => rfl
  | succ n ih => exact congrArg Prng.next ih

theorem Prng.draw_after (p : Prng) (m d : Nat) : (p.after m).draw d = p.draw (m + d) :=
  congrArg Prng.out (p.after_after m d)

/-! ### The sequencer's position (R33) -/

theorem State.fill_of_progress_lt (hb : s.PHASE ≠ .idle) (h : s.progress < 256) : s.PHASE = .fill := by
  cases hp : s.PHASE with
  | idle => exact absurd hp hb
  | fill => rfl
  | check => rw [State.progress_of_check hp] at h; omega

theorem State.check_of_progress_eq (hb : s.PHASE ≠ .idle) (h : s.progress = 256) : s.PHASE = .check := by
  cases hp : s.PHASE with
  | idle => exact absurd hp hb
  | fill => rw [State.progress_of_fill hp] at h; omega
  | check => rfl

theorem State.progress_le (s : State) : s.progress ≤ 256 := by
  unfold State.progress
  split <;> omega

/-! ### A running attempt, and its two micro-steps -/

/-- An attempt from `p` runs: its draws so far stand in the store, and S is the stream's state after them. -/
structure Attempt (s : State) (p : Prng) : Prop where
  busy : s.PHASE ≠ .idle
  home : s.PHASE = .check → s.ROW = 0 ∧ s.BLK = 0
  drawn : s.S = some (p.after s.progress)
  filled : FilledFrom s.MAT p s.progress

/-- An attempt from `p` is about to begin. -/
structure AttemptBegins (s : State) (p : Prng) : Prop where
  phase : s.PHASE = .fill
  row : s.ROW = 0
  blk : s.BLK = 0
  prng : s.S = some p

theorem AttemptBegins.progress (h : AttemptBegins s p) : s.progress = 0 := by
  rw [State.progress_of_fill h.phase, h.row, h.blk]
  rfl

theorem AttemptBegins.attempt (h : AttemptBegins s p) : Attempt s p where
  busy := by simp [h.phase]
  home := by simp [h.phase]
  drawn := by rw [h.progress]; exact h.prng
  filled := by rw [h.progress]; exact .zero s.MAT p

theorem State.progress_fillFrom (hp : s.PHASE = .fill) (q : Prng) :
    (s.fillFrom q).PHASE ≠ .idle ∧ (s.fillFrom q).progress = s.progress + 1 := by
  have hstored : ((s.drawn q).store q.out).PHASE = .fill := hp
  rw [State.progress_of_fill hp]
  exact State.progress_of_fill hstored ▸ State.progress_advance hstored

/-- R142: FILL makes the attempt's next draw. -/
theorem Attempt.fill (h : Attempt s p) (hp : s.PHASE = .fill) :
    engineStep s = .next (s.fillFrom (p.after s.progress)) ∧ Attempt (s.fillFrom (p.after s.progress)) p ∧
      (s.fillFrom (p.after s.progress)).progress = s.progress + 1 := by
  obtain ⟨hbusy, hprogress⟩ := State.progress_fillFrom hp (p.after s.progress)
  have hpos := State.progress_of_fill hp
  refine ⟨engineStep_of_fill_drawn hp h.drawn, ⟨hbusy, State.advance_home hp, ?_, ?_⟩, hprogress⟩
  · rw [hprogress]
    simp [Prng.after]
  · rw [hprogress, State.advance_MAT, hpos]
    exact (hpos ▸ h.filled).unpack

theorem State.judge_retry_PHASE (s : State) {r : BitVec 7} (h : r.toNat < 64) : (s.judge r).PHASE = .fill := by
  rw [State.judge_retry s (Nat.ne_of_lt h)]

/-- R143: CHECK finds the attempt's matrix in the store; where it is deficient, the next attempt goes on in the stream. -/
theorem Attempt.retry (h : Attempt s p) (hp : s.PHASE = .check) {r : BitVec 7}
    (hr : rankFn s.rankTable (attemptMatrix p) = r) (hl : r.toNat < 64) :
    engineStep s = .next (s.judge r) ∧ AttemptBegins (s.judge r) (p.after 256) := by
  obtain ⟨-, hhome, hS, hfilled⟩ := h
  obtain ⟨hrow, hblk⟩ := hhome hp
  rw [State.progress_of_check hp] at hS hfilled
  exact ⟨engineStep_of_check_answered hp hfilled.snapshot hr hl.le, s.judge_retry_PHASE hl, by simp [hrow],
    by simp [hblk], by simp [hS]⟩

/-! ### A whole attempt (R140, R142) -/

/-- What FILL can change, taken from `t`; all else of `s`. -/
def State.withFill (s t : State) : State :=
  { s with S := t.S, OUT := t.OUT, OUT_VALID := t.OUT_VALID, MAT := t.MAT, PHASE := t.PHASE, ROW := t.ROW, BLK := t.BLK }

theorem State.withFill_fillFrom (s : State) (q : Prng) : s.withFill (s.fillFrom q) = s.fillFrom q := by
  unfold State.fillFrom
  rcases State.advance_cases ((s.drawn q).store q.out) with ⟨-, he⟩ | ⟨-, -, he⟩ | ⟨-, -, he⟩ <;> rw [he] <;> rfl

theorem State.withFill_trans {u : State} (h : s.withFill t = t) (h' : t.withFill u = u) : s.withFill u = u := by
  rw [← h', ← h]
  rfl

/-- `t` is `s` after the first n draws of the attempt from `p` that begins there. -/
structure FilledTo (s : State) (p : Prng) (n : Nat) (t : State) : Prop extends Attempt t p where
  progress : t.progress = n
  frame : s.withFill t = t
  out : ∀ d, n = d + 1 → t.OUT = some (p.draw d) ∧ t.OUT_VALID = true

theorem FilledTo.step (h : FilledTo s p n t) (hn : n < 256) : ∃ u, engineStep t = .next u ∧ FilledTo s p (n + 1) u := by
  obtain ⟨hatt, rfl, hframe, -⟩ := h
  obtain ⟨hu, hatt', hpos⟩ := hatt.fill (State.fill_of_progress_lt hatt.busy hn)
  refine ⟨_, hu, hatt', hpos, State.withFill_trans hframe (t.withFill_fillFrom _), fun d hd => ?_⟩
  cases hd
  simp [Prng.draw]

theorem engineSteps_filledTo (h : AttemptBegins s p) : ∀ n ≤ 256, ∃ t, EngineSteps n s t ∧ FilledTo s p n t
  | 0, _ => ⟨s, rfl, h.attempt, h.progress, rfl, nofun⟩
  | n + 1, hn => by
    obtain ⟨t, ht, hf⟩ := engineSteps_filledTo h n (by omega)
    obtain ⟨u, hu, hf'⟩ := hf.step (by omega)
    exact ⟨u, ht.succ hu, hf'⟩

/-- R140: the store that holds a matrix. -/
abbrev Mat64.stored (a : Mat64) : MatrixStore := a.map fun r => r.map some

theorem snapshot_stored (a : Mat64) : snapshot a.stored = some a := by
  rw [snapshot_eq_some_iff]
  simp

theorem FilledFrom.eq_stored {m : MatrixStore} (h : FilledFrom m p 256) : m = (attemptMatrix p).stored := by
  ext1 i hi
  ext1 j hj
  rw [h ⟨i, hi⟩ ⟨j, hj⟩ (by simp only; omega), ← attemptMatrix_entry]
  simp

/-- What the 256 draws of an attempt from `p` leave, CHECK being next. -/
def State.attempted (s : State) (p : Prng) : State :=
  { s with
    S := some (p.after 256), OUT := some (p.draw 255), OUT_VALID := true, MAT := (attemptMatrix p).stored, PHASE := .check }

theorem FilledTo.eq_attempted (h : FilledTo s p 256 t) (h₀ : AttemptBegins s p) : t = s.attempted p := by
  obtain ⟨⟨hbusy, hhome, hS, hfilled⟩, hpos, hframe, hout⟩ := h
  have hp := State.check_of_progress_eq hbusy hpos
  obtain ⟨hrow, hblk⟩ := hhome hp
  obtain ⟨hO, hV⟩ := hout 255 rfl
  rw [hpos] at hS hfilled
  rw [← hframe, State.withFill, hS, hO, hV, hfilled.eq_stored, hp, hrow, hblk, ← h₀.row, ← h₀.blk, State.attempted]

theorem engineSteps_attempted (h : AttemptBegins s p) : EngineSteps 256 s (s.attempted p) := by
  obtain ⟨t, ht, hf⟩ := engineSteps_filledTo h 256 (le_refl 256)
  exact hf.eq_attempted h ▸ ht

/-! ### A whole generation (R143, R144, R152) -/

/-- R143: an attempt and its CHECK. -/
theorem engineSteps_judged (h : AttemptBegins s p) {r : BitVec 7} (hr : rankFn s.rankTable (attemptMatrix p) = r)
    (hl : r.toNat ≤ 64) : EngineSteps 257 s ((s.attempted p).judge r) :=
  (engineSteps_attempted h).succ
    (engineStep_of_check_answered (s := s.attempted p) rfl (snapshot_stored _) hr hl)

theorem AttemptBegins.again (h : AttemptBegins s p) {r : BitVec 7} (hl : r.toNat < 64) :
    AttemptBegins ((s.attempted p).judge r) (p.after 256) where
  phase := State.judge_retry_PHASE _ hl
  row := (State.judge_ROW _ r).trans h.row
  blk := (State.judge_BLK _ r).trans h.blk
  prng := State.judge_S _ r

/-- What a generation leaves whose attempt number A, from 0, is the accepted one. -/
def State.generated (s : State) (p : Prng) (A : Nat) : State :=
  { s with
    S := some (p.after (256 * (A + 1))), OUT := some (p.draw (256 * (A + 1) - 1)), OUT_VALID := true,
    MAT := (attemptMatrix (p.after (256 * A))).stored, MATRIX_VALID := true, LAST_RANK := 64,
    ATTEMPTS := BitVec.ofNat 32 (min (s.ATTEMPTS.toNat + (A + 1)) (2 ^ 32 - 1)), PHASE := .idle }

/-- R144: after a deficient attempt the generation goes on as from the stream's state there. -/
theorem State.generated_of_retry (s : State) (p : Prng) (A : Nat) {r : BitVec 7} (hr : r.toNat < 64) :
    ((s.attempted p).judge r).generated (p.after 256) A = s.generated p (A + 1) := by
  have hstream : 256 + 256 * A = 256 * (A + 1) := by omega
  have hdraws : 256 + 256 * (A + 1) = 256 * (A + 1 + 1) := by omega
  have hlast : 256 + (256 * (A + 1) - 1) = 256 * (A + 1 + 1) - 1 := by omega
  have hcount (a : Nat) : min (min (a + 1) (2 ^ 32 - 1) + (A + 1)) (2 ^ 32 - 1) = min (a + (A + 1 + 1)) (2 ^ 32 - 1) := by
    omega
  rw [State.judge_retry _ (Nat.ne_of_lt hr)]
  simp only [State.generated, State.countRank, State.attempted, Prng.after_after, Prng.draw_after, hstream, hdraws, hlast,
    countAttempt_toNat, hcount]

/-- R144, R152: A deficient attempts, and then an accepted one. -/
theorem engineSteps_generated (A : Nat) (h : AttemptBegins s p)
    (hdef : ∀ a < A, (rankFn s.rankTable (attemptMatrix (p.after (256 * a)))).toNat < 64)
    (hacc : rankFn s.rankTable (attemptMatrix (p.after (256 * A))) = 64) :
    EngineSteps (257 * (A + 1)) s (s.generated p A) := by
  induction A generalizing s p with
  | zero => exact engineSteps_judged h hacc (le_refl 64)
  | succ A ih =>
    have hfirst := hdef 0 (Nat.succ_pos A)
    have hnext (a : Nat) : (p.after 256).after (256 * a) = p.after (256 * (a + 1)) := by
      rw [Prng.after_after, Nat.mul_succ, Nat.add_comm]
    rw [← State.generated_of_retry s p A hfirst, Nat.mul_succ, Nat.add_comm]
    refine engineSteps_add_iff.2 ⟨_, engineSteps_judged h rfl hfirst.le, ih (h.again hfirst) (fun a ha => ?_) ?_⟩
    · rw [hnext, State.judge_rankTable]
      exact hdef (a + 1) (Nat.succ_lt_succ ha)
    · rw [hnext, State.judge_rankTable]
      exact hacc

end Sys2Proof.Machine

namespace Sys2Proof.Proofs

open Sys2Proof.Machine

/-- Settles O18, by induction on the number of draws (`engineSteps_filledTo`). -/
theorem attemptFillsTheMatrix : Obligations.AttemptFillsTheMatrix := fun _ _ hp hrow hblk hS =>
  run_withEngineTurns (engineSteps_attempted ⟨hp, hrow, hblk, hS⟩)

/-- Settles O29, by induction on the number of deficient attempts (`engineSteps_generated`). -/
theorem generationEndsWithTheAcceptedAttempt : Obligations.GenerationEndsWithTheAcceptedAttempt :=
  fun _ _ A hp hrow hblk hS hdef hacc => run_withEngineTurns (engineSteps_generated A ⟨hp, hrow, hblk, hS⟩ hdef hacc)

end Sys2Proof.Proofs

/-! ## The all-zero state (spec/42_matrix_generator.md R149; spec/40_prng_engine.md R105)

Its draws are 0, so its attempts' matrices are zero and deficient, and no generation from it ends. -/

namespace Sys2Proof.Machine

variable {s t : State}

/-! ### The zero matrix is deficient (R183) -/

/-- A matrix whose first column is zero loses it in the loop's first iteration. -/
theorem rankOf_lt_of_zero_column {n : Nat} (m : CheckMatrix n) (hn : 0 < n) (h : ∀ r, m.at r 0 = 0) : rankOf m < n := by
  have hpivot : m.lowerPivot 0 = none := by
    simp [CheckMatrix.lowerPivot, h]
  have hfirst : (RankLoop.start m).iterate = some ⟨m.moveColumn 0 (n - 1), n - 1, 0⟩ := by
    simp [RankLoop.iterate, RankLoop.start, hn, h, hpivot]
  have hfuel : 2 * n = 2 * n - 1 + 1 := by omega
  have hrank : rankOf m ≤ n - 1 := by
    rw [rankOf, hfuel, RankLoop.run, hfirst]
    exact RankLoop.run_rank_le _ _
  omega

theorem nibble_draw_zero (d k : Nat) : nibble ((Prng.mk 0 0 0 0).draw d) k = 0 := by
  rw [Prng.draw, Prng.after_zero, Prng.out_zero]
  simp [nibble]

theorem refRank_attemptMatrix_zero : refRank (attemptMatrix ⟨0, 0, 0, 0⟩) < 64 := by
  refine rankOf_lt_of_zero_column _ (by decide) fun r => ?_
  by_cases hr : r < 64
  · have hentry := attemptMatrix_entry ⟨0, 0, 0, 0⟩ ⟨r, hr⟩ 0
    rw [nibble_draw_zero] at hentry
    rw [CheckMatrix.at_eq _ hr (by decide)]
    simpa [checkMatrix] using congrArg BitVec.toNat hentry
  · simp [CheckMatrix.at, hr]

theorem RankTable.Exact.rankFn_zero_lt {tbl : RankTable} (h : tbl.Exact) :
    (rankFn tbl (attemptMatrix ⟨0, 0, 0, 0⟩)).toNat < 64 := by
  rw [h, refRank_toNat]
  exact refRank_attemptMatrix_zero

/-! ### Generations from the all-zero state -/

theorem zeroGeneration_iff : ZeroGeneration s ↔ Attempt s ⟨0, 0, 0, 0⟩ ∧ s.rankTable.Exact := by
  have hfilled : FilledFrom s.MAT ⟨0, 0, 0, 0⟩ s.progress ↔
      ∀ i j : Fin 64, 4 * i.val + j.val / 16 < s.progress → s.MAT[i.val][j.val] = some 0 := by
    simp only [FilledFrom, nibble_draw_zero]
  constructor
  · rintro ⟨hbusy, hS, hhome, hMAT, hexact⟩
    exact ⟨⟨hbusy, hhome, by rw [Prng.after_zero, hS], hfilled.2 hMAT⟩, hexact⟩
  · rintro ⟨⟨hbusy, hhome, hS, hMAT⟩, hexact⟩
    exact ⟨hbusy, by rw [hS, Prng.after_zero], hhome, hfilled.1 hMAT, hexact⟩

theorem ZeroGeneration.of_same (h : ZeroGeneration s) (hs : SameGenerator s t) : ZeroGeneration t where
  busy := by simpa only [hs.PHASE] using h.busy
  zero := by simpa only [hs.S] using h.zero
  check_home := by simpa only [hs.PHASE, hs.ROW, hs.BLK] using h.check_home
  filled := by simpa only [hs.MAT, hs.progress_eq] using h.filled
  exact := by simpa only [hs.rankTable] using h.exact

/-- R149: the engine's step makes one more draw of the attempt, or counts the attempt and begins the next. -/
theorem ZeroGeneration.engineStep (h : ZeroGeneration s) :
    ∃ t, engineStep s = .next t ∧ ZeroGeneration t ∧ t.MATRIX_VALID = s.MATRIX_VALID ∧
      ((t.progress = s.progress + 1 ∧ t.ATTEMPTS = s.ATTEMPTS) ∨
       (s.progress = 256 ∧ t.progress = 0 ∧ t.ATTEMPTS = countAttempt s.ATTEMPTS)) := by
  obtain ⟨hatt, hexact⟩ := zeroGeneration_iff.1 h
  cases hp : s.PHASE with
  | idle => exact absurd hp h.busy
  | fill =>
    obtain ⟨ht, hatt', hpos⟩ := hatt.fill hp
    exact ⟨_, ht, zeroGeneration_iff.2 ⟨hatt', by simpa using hexact⟩, by simp, .inl ⟨hpos, by simp⟩⟩
  | check =>
    have hr := hexact.rankFn_zero_lt
    obtain ⟨ht, hnext⟩ := hatt.retry hp rfl hr
    have hatt' : Attempt (s.judge _) ⟨0, 0, 0, 0⟩ := Prng.after_zero 256 ▸ hnext.attempt
    refine ⟨_, ht, zeroGeneration_iff.2 ⟨hatt', by simpa using hexact⟩, ?_,
      .inr ⟨State.progress_of_check hp, hnext.progress, by simp⟩⟩
    rw [State.judge_retry s (Nat.ne_of_lt hr)]
    rfl

/-- R149, R30: how far n steps of the engine bring a generation from the all-zero state that begins at `s`. -/
theorem ZeroGeneration.engineSteps (h : ZeroGeneration s) (h0 : s.progress = 0) (n : Nat) :
    ∃ t, EngineSteps n s t ∧ ZeroGeneration t ∧ t.MATRIX_VALID = s.MATRIX_VALID ∧
      ∃ k, n = 257 * k + t.progress ∧ t.ATTEMPTS.toNat = min (s.ATTEMPTS.toNat + k) (2 ^ 32 - 1) := by
  induction n with
  | zero => exact ⟨s, rfl, h, rfl, 0, by omega, by omega⟩
  | succ n ih =>
    obtain ⟨t, ht, hz, hvalid, k, hn, hcount⟩ := ih
    obtain ⟨u, hu, hz', hvalid', ⟨hpos, hatt⟩ | ⟨hend, hpos, hatt⟩⟩ := hz.engineStep
    · exact ⟨u, ht.succ hu, hz', hvalid'.trans hvalid, k, by omega, by rw [hatt, hcount]⟩
    · exact ⟨u, ht.succ hu, hz', hvalid'.trans hvalid, k + 1, by omega, by rw [hatt, countAttempt_toNat, hcount]; omega⟩

end Sys2Proof.Machine

namespace Sys2Proof.Proofs

open Sys2Proof.Machine

/-- Settles O57: the host's step by what it can do to a busy XMG (`hostStep_of_busy`), the engine's because the zero matrix
is deficient (`ZeroGeneration.engineStep`). -/
theorem everyStepKeepsTheZeroGeneration : Obligations.EveryStepKeepsTheZeroGeneration := by
  intro s h hr ha
  obtain ⟨hnow, -⟩ | ⟨hnow, hstep⟩ := step_cases s
  · obtain ⟨t, ht, hs⟩ := hostStep_of_busy h.busy hnow hr ha
    exact ⟨t, ht, h.of_same hs, hs.MATRIX_VALID⟩
  · obtain ⟨t, ht, hz, hvalid, -⟩ := (h.of_same (.takeTurn s)).engineStep
    exact ⟨t, hstep.trans ht, hz, hvalid⟩

/-- Settles O31: after n steps, k attempts and the draws of the current one are behind the engine
(`ZeroGeneration.engineSteps`), so k is n div 257. -/
theorem allZeroGenerationNeverCompletes : Obligations.AllZeroGenerationNeverCompletes := by
  intro s hp hrow hblk hS hexact n
  have hbegins : AttemptBegins s ⟨0, 0, 0, 0⟩ := ⟨hp, hrow, hblk, hS⟩
  have hzero : ZeroGeneration s := zeroGeneration_iff.2 ⟨hbegins.attempt, hexact⟩
  obtain ⟨t, ht, hz, hvalid, k, hn, hcount⟩ := hzero.engineSteps hbegins.progress n
  have hk : n / 257 = k := by
    have := t.progress_le
    omega
  exact ⟨t, run_withEngineTurns ht, hz.busy, hz.zero, hvalid, by rw [hk, hcount]⟩

end Sys2Proof.Proofs

/-! ## The start of a generation, and the engine's micro-steps (spec/42_matrix_generator.md R141 to R147) -/

namespace Sys2Proof.Machine

variable {s : State}

theorem exec_genSeeded_of_idle (h : s.PHASE = .idle) :
    exec (.genSeeded 32) s = .next (s.seedLoad.startGeneration.setErr .none) :=
  whenIdle_of_idle h

theorem exec_genContinue_of_seeded (h : s.PHASE = .idle) (hseeded : s.SEEDED = true) :
    exec .genContinue s = .next (s.startGeneration.setErr .none) :=
  (whenIdle_of_idle h).trans (whenSeeded_of_seeded hseeded)

/-- R187: CHECK stops on an answer above 64. -/
theorem engineStep_of_check_illegal {a : Mat64} (hp : s.PHASE = .check) (hM : snapshot s.MAT = some a)
    (hr : 64 < (rankFn s.rankTable a).toNat) : engineStep s = .fault .rankProtocol := by
  rw [engineStep_of_check hp, checkStep, hM]
  exact if_neg (not_le.2 hr)

/-! ### The sequencer's position after FILL (R142) -/

theorem State.advance_of_block (h : s.BLK.val < 3) : s.advance = { s with BLK := s.BLK + 1 } := if_pos h

theorem State.advance_of_row (hb : s.BLK.val = 3) (hr : s.ROW.val < 63) :
    s.advance = { s with BLK := 0, ROW := s.ROW + 1 } :=
  (if_neg hb.not_lt).trans (if_pos hr)

theorem State.advance_of_end (hb : s.BLK.val = 3) (hr : s.ROW.val = 63) :
    s.advance = { s with BLK := 0, ROW := 0, PHASE := .check } :=
  (if_neg hb.not_lt).trans (if_neg hr.not_lt)

end Sys2Proof.Machine

namespace Sys2Proof.Proofs

open Sys2Proof.Machine

/-- Settles O17: FILL leaves `s.fillFrom p`, whose position is R142's by cases and whose other
fields are the laws' of `drawn`, `store` and `advance`. -/
theorem fillStoresTheDraw : Obligations.FillStoresTheDraw := by
  intro s p hp hS
  refine ⟨_, engineStep_of_fill_drawn hp hS, by simp, by simp, by simp, fun i j => ?mat, fun hb => ?nextBlock,
    fun hb hr => ?nextRow, fun hb hr => ?toCheck, by simp, by simp, by simp, by simp, by simp, by simp, by simp, by simp,
    by simp, by simp⟩
  case mat =>
    rw [State.advance_MAT, State.store_MAT, unpack_entry, nibble_eq_extractLsb']
    rfl
  case nextBlock =>
    rw [State.fillFrom, State.advance_of_block (s := (s.drawn p).store p.out) hb]
    exact ⟨Fin.val_add_one_of_lt hb, rfl, hp⟩
  case nextRow =>
    rw [State.fillFrom, State.advance_of_row (s := (s.drawn p).store p.out) hb hr]
    exact ⟨rfl, Fin.val_add_one_of_lt hr, hp⟩
  case toCheck =>
    rw [State.fillFrom, State.advance_of_end (s := (s.drawn p).store p.out) hb hr]
    exact ⟨rfl, rfl, rfl⟩

/-- Settles O13, by the checks of R85 in their order; the words that the statement writes out are `prngOfSeed`'s by
definition. -/
theorem genSeededStartsAGeneration : Obligations.GenSeededStartsAGeneration :=
  ⟨by decide, fun _ => exec_genSeeded_of_idle,
    fun _ _ hidle hlen => (whenIdle_of_idle hidle).trans (whenLength_of_ne hlen), fun _ _ => whenIdle_of_busy⟩

/-- Settles O14, by the checks of R85 in their order. -/
theorem genContinueStartsAGeneration : Obligations.GenContinueStartsAGeneration :=
  ⟨by decide, fun _ => exec_genContinue_of_seeded,
    fun _ hidle hunseeded => (whenIdle_of_idle hidle).trans (whenSeeded_of_not_seeded hunseeded),
    fun _ => whenIdle_of_busy⟩

/-- Settles O19: the store that holds the matrix is the copy that the rank port is sent, and the answer is judged. -/
theorem checkJudgesTheRank : Obligations.CheckJudgesTheRank := by
  intro s a hp hMAT r attempts
  have hM : snapshot s.MAT = some a := (snapshot_eq_some_iff s.MAT a).2 hMAT
  refine ⟨fun hr => ?accept, fun hr => ?retry, engineStep_of_check_illegal hp hM⟩
  case accept =>
    have hr64 : r.toNat = 64 := congrArg BitVec.toNat hr
    rw [engineStep_of_check_answered hp hM rfl hr64.le, State.judge_accept s hr64]
    rfl
  case retry =>
    rw [engineStep_of_check_answered hp hM rfl hr.le, State.judge_retry s hr.ne]
    rfl

end Sys2Proof.Proofs

/-! ## RefRank (spec/43_rank_checker.md R183, R188, R189)

R188: an iteration brings `row` and `rank` one nearer to each other, or is a swap, which the next iteration follows with a
pivot. R189: row operations and the move of the last active column into the place of a dependent one keep the rank of the
first `rank` columns, and when the loop ends these are the columns of a diagonal matrix with no zero among them. -/

namespace Sys2Proof.Machine

section

variable {n : Nat} {m : CheckMatrix n} {rank row : Nat} {l l' : RankLoop n}

/-! ### The loop's shape -/

/-- R183: of the `rank` active columns, the first `row` are those of a diagonal matrix with no zero on its diagonal. -/
structure CheckMatrix.Reduced (m : CheckMatrix n) (rank row : Nat) : Prop where
  row_le : row ≤ rank
  rank_le : rank ≤ n
  pivot : ∀ c < row, m.at c c ≠ 0
  cleared : ∀ c < row, ∀ r < n, r ≠ c → m.at r c = 0

theorem CheckMatrix.reduced_zero (m : CheckMatrix n) : m.Reduced n 0 where
  row_le := Nat.zero_le n
  rank_le := le_refl n
  pivot := fun _ h => absurd h (Nat.not_lt_zero _)
  cleared := fun _ h => absurd h (Nat.not_lt_zero _)

theorem CheckMatrix.Reduced.eliminate (h : m.Reduced rank row) (hlt : row < rank) (hpivot : m.at row row ≠ 0) :
    (m.eliminate rank row).Reduced rank (row + 1) := by
  have hn := h.rank_le
  refine ⟨hlt, hn, fun c hc => ?pivot, fun c hc r hr hrc => ?cleared⟩ <;>
    obtain hc | rfl := Nat.lt_succ_iff_lt_or_eq.1 hc
  case pivot.inl =>
    have hzero := h.cleared c hc row (by omega) (by omega)
    simpa [CheckMatrix.at_eliminate, show c < n by omega, hzero] using h.pivot c hc
  case pivot.inr => simpa [CheckMatrix.at_eliminate, show c < n by omega] using hpivot
  case cleared.inl =>
    have hzero := h.cleared c hc row (by omega) (by omega)
    simpa [CheckMatrix.at_eliminate, hr, show c < n by omega, hzero] using h.cleared c hc r hr hrc
  case cleared.inr => simp [CheckMatrix.at_eliminate, hr, show c < n by omega, hrc, hlt, hpivot]

theorem CheckMatrix.Reduced.swapRows {p : Nat} (h : m.Reduced rank row) (hp : row < p) (hpn : p < n) :
    (m.swapRows rank row p).Reduced rank row := by
  have hn := h.rank_le
  refine ⟨h.row_le, hn, fun c hc => ?pivot, fun c hc r hr hrc => ?cleared⟩
  case pivot =>
    have hne : c ≠ row ∧ c ≠ p := by omega
    simpa [CheckMatrix.at_swapRows, show c < n by omega, hne] using h.pivot c hc
  case cleared =>
    have hrow := h.cleared c hc row (by omega) (by omega)
    have hother := h.cleared c hc p hpn (by omega)
    simp [CheckMatrix.at_swapRows, hr, show c < n by omega, hrow, hother, h.cleared c hc r hr hrc]

theorem CheckMatrix.Reduced.moveColumn (h : m.Reduced rank row) (hlt : row < rank) :
    (m.moveColumn row (rank - 1)).Reduced (rank - 1) row := by
  have hn := h.rank_le
  refine ⟨Nat.le_sub_one_of_lt hlt, (Nat.sub_le _ _).trans hn, fun c hc => ?pivot, fun c hc r hr hrc => ?cleared⟩
  case pivot => simpa [CheckMatrix.at_moveColumn, show c < n by omega, hc.ne] using h.pivot c hc
  case cleared => simpa [CheckMatrix.at_moveColumn, hr, show c < n by omega, hc.ne] using h.cleared c hc r hr hrc

theorem CheckMatrix.Reduced.iterate (h : l.m.Reduced l.rank l.row) (hl : l.iterate = some l') :
    l'.m.Reduced l'.rank l'.row := by
  obtain ⟨hlt, ⟨hpivot, rfl⟩ | ⟨p, -, hp, rfl⟩ | ⟨-, -, rfl⟩⟩ := RankLoop.iterate_cases hl
  · exact h.eliminate hlt hpivot
  · obtain ⟨hrow, hpn, -⟩ := CheckMatrix.lowerPivot_some hp
    exact h.swapRows hrow hpn
  · exact h.moveColumn hlt

/-- What every iteration keeps holds after the run. -/
theorem RankLoop.run_induction {P : RankLoop n → Prop} (hstep : ∀ l l', P l → l.iterate = some l' → P l') (fuel : Nat)
    (h : P l) : P (RankLoop.run fuel l) := by
  induction fuel generalizing l with
  | zero => exact h
  | succ fuel ih =>
    unfold RankLoop.run
    split
    · next l' hl => exact ih (hstep l l' h hl)
    · exact h

/-! ### The loop's end (R188) -/

/-- R188: a bound for the iterations to come. A zero pivot can cost two, the swap and then the pivot. -/
def RankLoop.bound (l : RankLoop n) : Nat := 2 * (l.rank - l.row) - if l.m.at l.row l.row = 0 then 0 else 1

theorem RankLoop.bound_le (l : RankLoop n) : l.bound ≤ 2 * (l.rank - l.row) := Nat.sub_le _ _

theorem RankLoop.bound_lt_of_iterate (h : l.m.Reduced l.rank l.row) (hl : l.iterate = some l') : l'.bound < l.bound := by
  have hn := h.rank_le
  obtain ⟨hlt, ⟨hpivot, rfl⟩ | ⟨p, hpivot, hp, rfl⟩ | ⟨hpivot, -, rfl⟩⟩ := RankLoop.iterate_cases hl
  · refine (RankLoop.bound_le _).trans_lt ?_
    simp only [RankLoop.bound, hpivot, if_false]
    omega
  · obtain ⟨-, -, hentry⟩ := CheckMatrix.lowerPivot_some hp
    have hswapped : (l.m.swapRows l.rank l.row p).at l.row l.row ≠ 0 := by
      simpa [CheckMatrix.at_swapRows, hlt, show l.row < n by omega] using hentry
    simp only [RankLoop.bound, hpivot, hswapped, if_true, if_false]
    omega
  · refine (RankLoop.bound_le _).trans_lt ?_
    simp only [RankLoop.bound, hpivot, if_true]
    omega

theorem RankLoop.run_ends {fuel : Nat} (h : l.m.Reduced l.rank l.row) (hfuel : l.bound ≤ fuel) :
    (RankLoop.run fuel l).iterate = none := by
  induction fuel generalizing l with
  | zero =>
    cases hl : l.iterate with
    | none => exact hl
    | some l' => exact absurd ((bound_lt_of_iterate h hl).trans_le hfuel) (Nat.not_lt_zero _)
  | succ fuel ih =>
    unfold RankLoop.run
    split
    · next l' hl => exact ih (h.iterate hl) (Nat.le_of_lt_succ ((bound_lt_of_iterate h hl).trans_le hfuel))
    · next hl => exact hl

theorem RankLoop.run_start_ends (m : CheckMatrix n) : (RankLoop.run (2 * n) (RankLoop.start m)).iterate = none :=
  RankLoop.run_ends m.reduced_zero (RankLoop.bound_le _)

/-! ### Matrices with the same row space or column space -/

/-- Adding multiples of one row to the rows does not raise the rank. -/
theorem rank_le_of_rows_add {A B : Matrix (Fin n) (Fin n) Rat} {k : Fin n} {a : Fin n → Rat}
    (h : ∀ r, B r = A r + a r • A k) : B.rank ≤ A.rank := by
  rw [Matrix.rank_eq_finrank_span_row, Matrix.rank_eq_finrank_span_row]
  refine Submodule.finrank_mono (Submodule.span_le.2 (Set.range_subset_iff.2 fun r => ?_))
  have hmem (i : Fin n) : A i ∈ Submodule.span Rat (Set.range A.row) := Submodule.subset_span ⟨i, rfl⟩
  change B r ∈ Submodule.span Rat (Set.range A.row)
  rw [h]
  exact add_mem (hmem r) (Submodule.smul_mem _ _ (hmem k))

/-- Adding multiples of a row to the other rows is undone by taking them away, so it keeps the rank. -/
theorem rank_eq_of_rows_add {A B : Matrix (Fin n) (Fin n) Rat} {k : Fin n} {a : Fin n → Rat} (hk : a k = 0)
    (h : ∀ r, B r = A r + a r • A k) : B.rank = A.rank := by
  have hkeep : B k = A k := by rw [h, hk, zero_smul, add_zero]
  refine le_antisymm (rank_le_of_rows_add h) (rank_le_of_rows_add (k := k) (a := -a) fun r => ?_)
  rw [hkeep, h, Pi.neg_apply, neg_smul, add_neg_cancel_right]

theorem rank_le_of_cols_mem {A B : Matrix (Fin n) (Fin n) Rat}
    (h : ∀ c, B.col c ∈ Submodule.span Rat (Set.range A.col)) : B.rank ≤ A.rank := by
  rw [Matrix.rank_eq_finrank_span_cols, Matrix.rank_eq_finrank_span_cols]
  exact Submodule.finrank_mono (Submodule.span_le.2 (Set.range_subset_iff.2 h))

/-! ### The rank of the active columns (R189) -/

/-- The active columns of the matrix, the first `rank`, with zeros in place of the others. -/
def CheckMatrix.active (m : CheckMatrix n) (rank : Nat) : Matrix (Fin n) (Fin n) Rat :=
  Matrix.of fun r c => if c.val < rank then m.at r c else 0

theorem CheckMatrix.active_apply (m : CheckMatrix n) (rank : Nat) (r c : Fin n) :
    m.active rank r c = if c.val < rank then m.at r c else 0 := rfl

theorem CheckMatrix.active_self (m : CheckMatrix n) : m.active n = Matrix.of fun i j : Fin n => m[i.val][j.val] := by
  ext r c
  simp [CheckMatrix.active_apply, CheckMatrix.at_eq]

theorem CheckMatrix.col_active_of_le (m : CheckMatrix n) {c : Fin n} (hc : rank ≤ c.val) : (m.active rank).col c = 0 := by
  ext r
  simp [CheckMatrix.active_apply, hc]

/-- R183: the factor with which the pivot's row is added to a row; none for the pivot's row itself. -/
def CheckMatrix.factor (m : CheckMatrix n) (row : Nat) (r : Fin n) : Rat :=
  if r.val = row then 0 else -(m.at r row / m.at row row)

theorem CheckMatrix.rank_active_eliminate (m : CheckMatrix n) (rank : Nat) (hrow : row < n) :
    ((m.eliminate rank row).active rank).rank = (m.active rank).rank := by
  refine rank_eq_of_rows_add (k := ⟨row, hrow⟩) (a := m.factor row) (if_pos rfl) fun r => ?_
  ext c
  by_cases hr : r.val = row <;> by_cases hc : c.val < rank <;>
    simp [CheckMatrix.active_apply, CheckMatrix.at_eliminate, CheckMatrix.factor, hrow, hr, hc, sub_eq_add_neg]

theorem CheckMatrix.rank_active_swapRows (m : CheckMatrix n) (rank : Nat) {p : Nat} (hrow : row < n) (hp : p < n) :
    ((m.swapRows rank row p).active rank).rank = (m.active rank).rank := by
  have hswap : (m.swapRows rank row p).active rank =
      (m.active rank).submatrix (Equiv.swap ⟨row, hrow⟩ ⟨p, hp⟩) (Equiv.refl _) := by
    ext r c
    simp only [CheckMatrix.active_apply, CheckMatrix.at_swapRows _ _ _ _ r.isLt c.isLt, Matrix.submatrix_apply,
      Equiv.swap_apply_def, Equiv.refl_apply, Fin.ext_iff]
    split_ifs <;> rfl
  rw [hswap, Matrix.rank_submatrix]

theorem CheckMatrix.Reduced.col_active (h : m.Reduced rank row) {k : Fin n} (hk : k.val < row) :
    (m.active rank).col k = Pi.single k (m.at k k) := by
  have hrank : k.val < rank := hk.trans_le h.row_le
  ext r
  by_cases hr : r = k
  · subst hr
    simp [CheckMatrix.active_apply, hrank]
  · simp [CheckMatrix.active_apply, hrank, hr, h.cleared k hk r r.isLt (Fin.val_ne_of_ne hr)]

/-- A column with zeros from row `row` on is a combination of the first `row` columns. -/
theorem CheckMatrix.Reduced.mem_of_cols_mem (h : m.Reduced rank row) {W : Submodule Rat (Fin n → Rat)}
    (hW : ∀ c : Fin n, c.val < row → (m.active rank).col c ∈ W) {v : Fin n → Rat}
    (hv : ∀ r : Fin n, row ≤ r.val → v r = 0) : v ∈ W := by
  rw [← Finset.univ_sum_single v]
  refine sum_mem fun k _ => ?_
  obtain hk | hk := Nat.lt_or_ge k.val row
  · have hcol : Pi.single k (v k) = (v k / m.at k k) • (m.active rank).col k := by
      rw [h.col_active hk, ← Pi.single_smul, smul_eq_mul, div_mul_cancel₀ _ (h.pivot k hk)]
    rw [hcol]
    exact Submodule.smul_mem _ _ (hW k hk)
  · rw [hv k hk, Pi.single_zero]
    exact zero_mem W

theorem CheckMatrix.col_active_moveColumn_same (m : CheckMatrix n) {row last : Fin n} (hrow : row < last) :
    ((m.moveColumn row last).active last).col row = (m.active (last + 1)).col last := by
  ext r
  simp [CheckMatrix.active_apply, CheckMatrix.at_moveColumn, Fin.lt_def.1 hrow]

theorem CheckMatrix.col_active_moveColumn_other (m : CheckMatrix n) {row last c : Fin n} (hc : c < last) (hne : c ≠ row) :
    ((m.moveColumn row last).active last).col c = (m.active (last + 1)).col c := by
  ext r
  simp [CheckMatrix.active_apply, CheckMatrix.at_moveColumn, Fin.lt_def.1 hc, Nat.lt_succ_of_lt (Fin.lt_def.1 hc),
    Fin.val_ne_of_ne hne]

theorem CheckMatrix.rank_active_moveColumn_le (m : CheckMatrix n) {row last : Fin n} :
    ((m.moveColumn row last).active last).rank ≤ (m.active (last + 1)).rank := by
  refine rank_le_of_cols_mem fun c => ?_
  obtain hc | hc := lt_or_ge c last
  · by_cases hne : c = row
    · subst hne
      rw [m.col_active_moveColumn_same hc]
      exact Submodule.subset_span ⟨last, rfl⟩
    · rw [m.col_active_moveColumn_other hc hne]
      exact Submodule.subset_span ⟨c, rfl⟩
  · rw [CheckMatrix.col_active_of_le _ hc]
    exact zero_mem _

/-- R183: a column with no pivot depends on the reduced columns before it, so the last active column can take its place. -/
theorem CheckMatrix.Reduced.rank_active_le_moveColumn {row last : Fin n} (h : m.Reduced (last + 1) row) (hrow : row ≤ last)
    (hzero : ∀ r : Fin n, row ≤ r → m.at r row = 0) :
    (m.active (last + 1)).rank ≤ ((m.moveColumn row last).active last).rank := by
  have hother {c : Fin n} (hc : c < last) (hne : c ≠ row) : (m.active (last + 1)).col c ∈
      Submodule.span Rat (Set.range ((m.moveColumn row last).active last).col) :=
    Submodule.subset_span ⟨c, m.col_active_moveColumn_other hc hne⟩
  refine rank_le_of_cols_mem fun c => ?_
  by_cases hne : c = row
  · subst hne
    refine h.mem_of_cols_mem (fun k hk => hother (lt_of_lt_of_le hk hrow) (Fin.ne_of_lt hk)) fun r hr => ?_
    simp [CheckMatrix.active_apply, hzero r hr]
  · obtain hc | rfl | hc := lt_trichotomy c last
    · exact hother hc hne
    · exact Submodule.subset_span ⟨row, m.col_active_moveColumn_same (lt_of_le_of_ne hrow (Ne.symm hne))⟩
    · rw [CheckMatrix.col_active_of_le _ hc]
      exact zero_mem _

theorem CheckMatrix.Reduced.rank_active_moveColumn (h : m.Reduced rank row) (hlt : row < rank)
    (hzero : ∀ r < n, row ≤ r → m.at r row = 0) :
    ((m.moveColumn row (rank - 1)).active (rank - 1)).rank = (m.active rank).rank := by
  obtain ⟨last, rfl⟩ := Nat.exists_eq_add_one_of_ne_zero (Nat.ne_zero_of_lt hlt)
  have hn := h.rank_le
  exact le_antisymm (m.rank_active_moveColumn_le (row := ⟨row, by omega⟩) (last := ⟨last, by omega⟩))
    (CheckMatrix.Reduced.rank_active_le_moveColumn (row := ⟨row, by omega⟩) (last := ⟨last, by omega⟩) h
      (Nat.le_of_lt_succ hlt) fun r => hzero r r.isLt)

/-- R189: an iteration keeps the rank of the active columns. -/
theorem RankLoop.rank_active_of_iterate (h : l.m.Reduced l.rank l.row) (hl : l.iterate = some l') :
    (l'.m.active l'.rank).rank = (l.m.active l.rank).rank := by
  have hn := h.rank_le
  obtain ⟨hlt, ⟨-, rfl⟩ | ⟨p, -, hp, rfl⟩ | ⟨hpivot, hnone, rfl⟩⟩ := RankLoop.iterate_cases hl
  · exact l.m.rank_active_eliminate _ (hlt.trans_le hn)
  · obtain ⟨-, hpn, -⟩ := CheckMatrix.lowerPivot_some hp
    exact l.m.rank_active_swapRows _ (hlt.trans_le hn) hpn
  · refine h.rank_active_moveColumn hlt fun r hr hrow => ?_
    obtain rfl | hrow := Nat.eq_or_lt_of_le hrow
    · exact hpivot
    · exact CheckMatrix.lowerPivot_none hnone hrow hr

/-- When every active column is reduced, their rank is their number. -/
theorem CheckMatrix.Reduced.rank_active_eq (h : m.Reduced rank rank) : (m.active rank).rank = rank := by
  have hdiag : m.active rank = Matrix.diagonal fun c : Fin n => if c.val < rank then m.at c c else 0 := by
    ext r c
    by_cases hrc : r = c
    · subst hrc
      simp [CheckMatrix.active_apply]
    · rw [Matrix.diagonal_apply_ne _ hrc, CheckMatrix.active_apply]
      exact ite_eq_right_iff.2 fun hc => h.cleared c hc r r.isLt (Fin.val_ne_of_ne hrc)
  have hentry (c : Fin n) : (if c.val < rank then m.at c c else 0) ≠ 0 ↔ c.val < rank := by
    rw [Ne, ite_eq_right_iff, not_forall]
    exact ⟨fun ⟨hc, _⟩ => hc, fun hc => ⟨hc, h.pivot c hc⟩⟩
  rw [hdiag, Matrix.rank_diagonal, Fintype.card_congr (Equiv.subtypeEquivRight hentry)]
  exact Fintype.card_fin_lt_of_le h.rank_le

/-- R189: the loop's invariant for a matrix of rank `r`. -/
structure RankLoop.HasRank (l : RankLoop n) (r : Nat) : Prop where
  reduced : l.m.Reduced l.rank l.row
  rank_active : (l.m.active l.rank).rank = r

theorem RankLoop.hasRank_start (m : CheckMatrix n) :
    (RankLoop.start m).HasRank (Matrix.of fun i j : Fin n => m[i.val][j.val]).rank where
  reduced := m.reduced_zero
  rank_active := congrArg Matrix.rank m.active_self

theorem RankLoop.HasRank.iterate {r : Nat} (h : l.HasRank r) (hl : l.iterate = some l') : l'.HasRank r where
  reduced := h.reduced.iterate hl
  rank_active := (rank_active_of_iterate h.reduced hl).trans h.rank_active

theorem RankLoop.HasRank.run {r : Nat} (h : l.HasRank r) (fuel : Nat) : (RankLoop.run fuel l).HasRank r :=
  RankLoop.run_induction (P := (RankLoop.HasRank · r)) (fun _ _ h => h.iterate) fuel h

theorem RankLoop.HasRank.rank_eq {r : Nat} (h : l.HasRank r) (hend : l.iterate = none) : l.rank = r := by
  have hreduced := h.reduced
  rw [← le_antisymm (RankLoop.iterate_eq_none_iff.1 hend) hreduced.row_le] at hreduced
  exact hreduced.rank_active_eq.symm.trans h.rank_active

end

end Sys2Proof.Machine

namespace Sys2Proof.Proofs

open Sys2Proof.Machine

/-- Settles O52: every iteration lowers `RankLoop.bound`, which is at most 2n at the start. -/
theorem refRankLoopEnds : Obligations.RefRankLoopEnds := fun _ m => ⟨RankLoop.run_start_ends m, rankOf_le m⟩

/-- Settles O53: every iteration keeps the rank of the active columns (`RankLoop.HasRank`), which is the whole matrix's at the
start and the number of these columns at the end. -/
theorem refRankIsTheRationalRank : Obligations.RefRankIsTheRationalRank := fun n m =>
  ((RankLoop.hasRank_start m).run (2 * n)).rank_eq (RankLoop.run_start_ends m)

end Sys2Proof.Proofs

/-! ## The control commands (spec/44_control.md R200, R201)

NOP and ABORT carry no operand, so each has one word, and every other word with its opcode is BAD (R86). -/

namespace Sys2Proof

theorem decode_eq_command_iff_eq_encode {w : Word} {i : Instr} (hwf : i.wf = true) :
    decode w = .command i ↔ w = encode i := by
  rw [decode_eq_command_iff, and_iff_right hwf, eq_comm]

/-- R86: the opcode of a command without an operand has one word that is a command. -/
theorem eq_commandWord_of_decode {w : Word} {i : Instr} (h : decode w = .command i)
    (hop : (opcodeField w).toNat ∈ [0x0, 0x2, 0x4, 0xF]) : w = commandWord (opcodeField w) 0 := by
  obtain ⟨-, h0, h1, hi, hlen⟩ := fields_of_decode h
  exact eq_commandWord_iff.2 ⟨h0, h1, rfl, hlen.trans (Instr.lenBits_eq_zero (hi ▸ hop))⟩

end Sys2Proof

namespace Sys2Proof.Machine

variable {s : State}

/-- R86: a word with the opcode of a command without an operand, but not that command's word, fails with BAD_COMMAND. -/
theorem execute_of_ne_commandWord {w : Word} (op : BitVec 4) (hmem : op.toNat ∈ [0x0, 0x2, 0x4, 0xF])
    (hop : w.toNat % 2 ^ 4 = op.toNat) (hw : w ≠ commandWord op 0) : execute w s = .next (s.fail .badCommand) := by
  obtain rfl : opcodeField w = op := BitVec.eq_of_toNat_eq ((opcodeField_toNat w).trans hop)
  cases hd : decode w with
  | bad why => exact execute_bad hd
  | command i => exact absurd (eq_commandWord_of_decode hd hmem) hw

theorem exec_abort_of_idle (h : s.PHASE = .idle) : exec .abort s = .next s := if_pos h

theorem exec_abort_of_busy (h : s.PHASE ≠ .idle) : exec .abort s = .next (s.stopGeneration.setErr .aborted) := if_neg h

end Sys2Proof.Machine

namespace Sys2Proof.Proofs

open Sys2Proof.Machine

/-- Settles O9: NOP's meaning is the state itself, and its only word is its encoding. -/
theorem nopChangesNothing : Obligations.NopChangesNothing :=
  ⟨fun _ => rfl, fun _ => decode_eq_command_iff_eq_encode rfl, fun _ _ => execute_of_ne_commandWord 0x0 (by decide)⟩

/-- Settles O10, by ABORT's two cases of PHASE; its only word is its encoding. -/
theorem abortStopsTheGeneration : Obligations.AbortStopsTheGeneration :=
  ⟨fun _ => exec_abort_of_idle, fun _ => exec_abort_of_busy, fun _ => decode_eq_command_iff_eq_encode rfl,
    fun _ _ => execute_of_ne_commandWord 0xF (by decide)⟩

end Sys2Proof.Proofs

/-! ## Bus errors, command errors and ERR (spec/60_exceptions.md R220 to R226)

An access that the window refuses leaves XMG as it is; a command leaves ERR with the code of the first of R85's checks that
fails, and NONE where none does. -/

namespace Sys2Proof.Machine

variable {s t : State} {off : Offset} {size : Nat} {v : Word}

/-! ### Offsets in the map (R52) -/

theorem Reg.offset_inj {r r' : Reg} : r.offset = r'.offset ↔ r = r' := by
  refine ⟨fun h => ?_, congrArg _⟩
  simpa [h, regAt_offset] using (regAt_offset r).symm

/-- R52: n + 1 registers in a row stand at the aligned offsets from the first's to the last's. -/
theorem exists_offset_iff {base n : Nat} (hbase : base % 8 = 0) (hlast : base + 8 * n < 2 ^ 12) (h8 : off.toNat % 8 = 0) :
    (∃ w : Fin (n + 1), off = BitVec.ofNat 12 (base + 8 * w.val)) ↔ base ≤ off.toNat ∧ off.toNat ≤ base + 8 * n := by
  have htoNat (k : Nat) (hk : k ≤ n) : (BitVec.ofNat 12 (base + 8 * k)).toNat = base + 8 * k := by
    rw [BitVec.toNat_ofNat, Nat.mod_eq_of_lt (by omega)]
  constructor
  · rintro ⟨w, rfl⟩
    rw [htoNat w.val (by omega)]
    omega
  · rintro ⟨hlow, hhigh⟩
    obtain ⟨k, hk⟩ : ∃ k, off.toNat = base + 8 * k := ⟨(off.toNat - base) / 8, by omega⟩
    exact ⟨⟨k, by omega⟩, BitVec.eq_of_toNat_eq (hk.trans (htoNat k (by omega)).symm)⟩

/-! ### What no command touches (R222, R224) -/

theorem exec_frame {i : Instr} (h : exec i s = .next t) :
    t.MAT = s.MAT ∧ t.LAST_RANK = s.LAST_RANK ∧ t.log = s.log ∧ t.rankTable = s.rankTable := by
  rcases exec_next h with rfl | ⟨e, rfl⟩ | ⟨-, -, rfl⟩ | ⟨-, -, rfl⟩ | ⟨p, -, -, -, -, rfl⟩ | ⟨-, -, rfl⟩ |
    ⟨-, -, -, rfl⟩ <;> exact ⟨rfl, rfl, rfl, rfl⟩

theorem execute_log {w : Word} (h : execute w s = .next t) : t.log = s.log := by
  cases hd : decode w with
  | command i =>
    obtain ⟨-, -, hlog, -⟩ := exec_frame (execute_command hd ▸ h)
    exact hlog
  | bad why =>
    cases (execute_bad hd).symm.trans h
    rfl

/-! ### Writes that end in BUSERR (R220, R221) -/

/-- R220: the host sees that its write was accepted, or XMG is as it was. -/
theorem memWrite_accepted_or_refused (h : memWrite s off size v = .next t) :
    t.log = .done :: s.log ∨ t = s.record .busErr := by
  obtain ⟨-, -, he⟩ | ⟨w, -, -, rfl⟩ | rfl := hostWrite_next h
  · exact .inl (execute_log he)
  · exact .inl rfl
  · exact .inr rfl

theorem memWrite_of_busErr (h : memWrite s off size v = .next t) (hlog : t.log.head? = some .busErr) :
    t = s.record .busErr := by
  refine (memWrite_accepted_or_refused h).resolve_left fun hdone => ?_
  simp [hdone] at hlog

/-- R59: an aligned 8-byte write to CMD or to a seed register is accepted. -/
theorem memWrite_log_of_accepted (h8 : off.toNat % 8 = 0)
    (hoff : off.toNat = 0 ∨ (0x020 ≤ off.toNat ∧ off.toNat ≤ 0x038)) (h : memWrite s off 8 v = .next t) :
    t.log = .done :: s.log := by
  obtain h0 | hrange := hoff
  · obtain rfl : off = 0x000 := BitVec.eq_of_toNat_eq h0
    exact execute_log ((memWrite_cmd s v).symm.trans h)
  · obtain ⟨w, rfl⟩ := (exists_offset_iff (n := 3) rfl (by decide) h8).2 hrange
    cases (memWrite_seed s w v).symm.trans h
    rfl

/-- R59, R221: a write is refused for its width, its alignment, or because neither CMD nor a seed register is there. -/
theorem memWrite_busErr_iff :
    (∃ t, memWrite s off size v = .next t ∧ t.log = .busErr :: s.log) ↔
      size ≠ 8 ∨ off.toNat % 8 ≠ 0 ∨ (off.toNat ≠ 0 ∧ (off.toNat < 0x020 ∨ 0x040 ≤ off.toNat)) := by
  constructor
  · rintro ⟨t, h, hlog⟩
    by_contra hcauses
    obtain ⟨rfl, h8, hoff⟩ : size = 8 ∧ off.toNat % 8 = 0 ∧
        (off.toNat = 0 ∨ (0x020 ≤ off.toNat ∧ off.toNat ≤ 0x038)) := by omega
    simp [memWrite_log_of_accepted h8 hoff h] at hlog
  · rintro (hsize | h8 | ⟨h0, hoff⟩)
    · exact ⟨_, memWrite_not_ok s v (accessOk_eq_false (.inl hsize)), rfl⟩
    · exact ⟨_, memWrite_not_ok s v (accessOk_eq_false (.inr h8)), rfl⟩
    · exact ⟨_, memWrite_dropped s v h0 hoff, rfl⟩

/-! ### Reads that end in BUSERR (R58, R221) -/

/-- R58: a guarded read ends in BUSERR where its guard fails; one that passes returns a value, or stops (R36). -/
theorem guarded_eq_busErr_iff {flag : Bool} {v : Option Word} :
    guarded (!s.busy && flag) v = .ok .busErr ↔ s.PHASE ≠ .idle ∨ flag = false := by
  refine ⟨fun h => ?_, guarded_busErr⟩
  obtain ⟨-, w, -, hr⟩ | ⟨hg, -⟩ := guarded_ok h
  · cases hr
  · exact (Bool.and_eq_false_iff.1 hg).imp_left fun hb => (State.busy_iff s).1 (by simpa using hb)

/-- R58: what has the read of each register end in BUSERR. -/
def Reg.readRefused (s : State) : Reg → Prop
  | .cmd => True
  | .status | .attempts | .seed _ => False
  | .out => s.PHASE ≠ .idle ∨ s.OUT_VALID = false
  | .s _ => s.PHASE ≠ .idle ∨ s.SEEDED = false
  | .matw _ => s.PHASE ≠ .idle ∨ s.MATRIX_VALID = false

theorem readReg_eq_busErr_iff (r : Reg) : readReg s r = .ok .busErr ↔ r.readRefused s := by
  cases r with
  | cmd => exact iff_of_true rfl trivial
  | status | attempts | seed => exact iff_of_false nofun id
  | out | s | matw => exact guarded_eq_busErr_iff

theorem memRead_eq_busErr_iff :
    memRead s off size = .ok .busErr ↔
      size ≠ 8 ∨ off.toNat % 8 ≠ 0 ∨ regAt off = none ∨ ∃ r : Reg, off = r.offset ∧ r.readRefused s := by
  by_cases hok : size = 8 ∧ off.toNat % 8 = 0
  · obtain ⟨rfl, h8⟩ := hok
    cases hr : regAt off with
    | none => simp [memRead_no_reg s hr]
    | some r =>
      obtain rfl := regAt_eq_some h8 hr
      simp [memRead_offset, readReg_eq_busErr_iff, h8, r.offset_inj]
  · have hbad : size ≠ 8 ∨ off.toNat % 8 ≠ 0 := not_and_or.1 hok
    exact iff_of_true (memRead_not_ok s (accessOk_eq_false hbad)) (hbad.imp_right .inl)

/-- R221: the registers whose reads end in BUSERR, by their offsets. -/
theorem exists_readRefused_iff (h8 : off.toNat % 8 = 0) :
    (∃ r : Reg, off = r.offset ∧ r.readRefused s) ↔
      off.toNat = 0x000 ∨
      (off.toNat = 0x010 ∧ (s.PHASE ≠ .idle ∨ s.OUT_VALID = false)) ∨
      (0x040 ≤ off.toNat ∧ off.toNat ≤ 0x058 ∧ (s.PHASE ≠ .idle ∨ s.SEEDED = false)) ∨
      (0x100 ≤ off.toNat ∧ off.toNat ≤ 0x8F8 ∧ (s.PHASE ≠ .idle ∨ s.MATRIX_VALID = false)) := by
  constructor
  · rintro ⟨r, rfl, hr⟩
    cases r with
    | cmd => exact .inl rfl
    | status | attempts | seed => exact hr.elim
    | out => exact .inr (.inl ⟨rfl, hr⟩)
    | s w =>
      obtain ⟨hlow, hhigh⟩ := (exists_offset_iff (n := 3) rfl (by decide) h8).1 ⟨w, rfl⟩
      exact .inr (.inr (.inl ⟨hlow, hhigh, hr⟩))
    | matw w =>
      obtain ⟨hlow, hhigh⟩ := (exists_offset_iff (n := 255) rfl (by decide) h8).1 ⟨w, rfl⟩
      exact .inr (.inr (.inr ⟨hlow, hhigh, hr⟩))
  · rintro (h0 | ⟨hout, hr⟩ | ⟨hlow, hhigh, hr⟩ | ⟨hlow, hhigh, hr⟩)
    · exact ⟨.cmd, BitVec.eq_of_toNat_eq h0, trivial⟩
    · exact ⟨.out, BitVec.eq_of_toNat_eq hout, hr⟩
    · obtain ⟨w, rfl⟩ := (exists_offset_iff (n := 3) rfl (by decide) h8).2 ⟨hlow, hhigh⟩
      exact ⟨.s w, rfl, hr⟩
    · obtain ⟨w, rfl⟩ := (exists_offset_iff (n := 255) rfl (by decide) h8).2 ⟨hlow, hhigh⟩
      exact ⟨.matw w, rfl, hr⟩

/-! ### Reads and refused writes, as steps (R220) -/

theorem SameXmg.accessed (s : State) (r : Response) : SameXmg s (s.accessed r) :=
  { SameGenerator.accessed s r with SEED := rfl, ERR := rfl }

theorem SameXmg.polled (s : State) (g : Bool) (r : Response) :
    SameXmg s (if g then s.accessed r else s.takeTurn.record r) :=
  { SameGenerator.polled s g r with SEED := by cases g <;> rfl, ERR := by cases g <;> rfl }

theorem step_read_sameXmg (hnow : hostNow s (.read off size)) (h : step s = .next t) : SameXmg s t := by
  rw [step_of_hostNow hnow] at h
  obtain ⟨r, -, rfl⟩ := withRead_next h
  exact .accessed s r

theorem step_poll_sameXmg {mask : Word} (hnow : hostNow s (.poll off mask v)) (h : step s = .next t) : SameXmg s t := by
  rw [step_of_hostNow hnow] at h
  obtain ⟨r, -, rfl⟩ := withRead_next h
  exact .polled s _ r

theorem step_refusedWrite_sameXmg (hnow : hostNow s (.write off size v)) (h : step s = .next t)
    (hlog : t.log.head? = some .busErr) : SameXmg s t := by
  rw [step_of_hostNow hnow] at h
  obtain rfl := memWrite_of_busErr (s := s.takeTurn.popHost) h hlog
  exact .accessed s .busErr

/-! ### ERR after a step that is no command (R225) -/

theorem engineStep_ERR (h : engineStep s = .next t) : t.ERR = s.ERR := by
  obtain ⟨-, rfl⟩ | ⟨p, -, -, rfl⟩ | ⟨a, -, -, -, rfl⟩ := engineStep_next h <;> simp

theorem memWrite_ERR (hoff : off ≠ 0x000 ∨ size ≠ 8) (h : memWrite s off size v = .next t) : t.ERR = s.ERR := by
  obtain ⟨h0, h8, -⟩ | ⟨w, -, -, rfl⟩ | rfl := hostWrite_next h
  · exact absurd h8 (hoff.resolve_left (not_not.2 h0))
  · rfl
  · rfl

theorem step_of_badCommandNow (h : badCommandNow s) : step s = .next ((s.accessed .done).fail .badCommand) := by
  obtain ⟨w, why, hd, hw⟩ := h
  exact (step_of_hostNow hw).trans (execute_bad hd)

/-! ### ERR after a command: the checks of R85 in their order (R226) -/

section

variable {k : Host.Outcome State Fault Refusal}

theorem whenIdle_ERR {e : ErrCode} (h : whenIdle s k = .next t) (hk : k = .next t → t.ERR = e) :
    t.ERR = if s.PHASE ≠ .idle then .busy else e := by
  obtain ⟨hp, h⟩ | ⟨hp, rfl⟩ := whenIdle_next h
  · simp [hp, hk h]
  · simp [hp]

theorem whenLength_ERR {len : Nat} (h : whenLength len s k = .next t) (hk : k = .next t → t.ERR = .none) :
    t.ERR = if len ≠ 32 then .invalidSeedLength else .none := by
  obtain ⟨hl, h⟩ | ⟨hl, rfl⟩ := whenLength_next h
  · simp [hl, hk h]
  · simp [hl]

theorem whenSeeded_ERR (h : whenSeeded s k = .next t) (hk : k = .next t → t.ERR = .none) :
    t.ERR = if s.SEEDED = false then .notSeeded else .none := by
  obtain ⟨hd, h⟩ | ⟨hd, rfl⟩ := whenSeeded_next h
  · simp [hd, hk h]
  · simp [hd]

end

theorem setErr_next_ERR {u : State} {e : ErrCode}
    (h : (.next (u.setErr e) : Host.Outcome State Fault Refusal) = .next t) : t.ERR = e := by
  cases h
  rfl

theorem exec_abort_ERR (h : exec .abort s = .next t) : t.ERR = if s.PHASE = .idle then s.ERR else .aborted := by
  obtain ⟨hp, rfl⟩ | ⟨hp, rfl⟩ := execAbort_next h <;> simp [hp]

/-- R122, R146: the two commands that load the seed. -/
theorem exec_ERR_of_seedLoad {i : Instr} {len : Nat} (hi : i = .loadSeed len ∨ i = .genSeeded len)
    (h : exec i s = .next t) :
    t.ERR = if s.PHASE ≠ .idle then .busy else if len ≠ 32 then .invalidSeedLength else .none := by
  obtain rfl | rfl := hi <;> exact whenIdle_ERR h fun h => whenLength_ERR h setErr_next_ERR

/-- R103, R147: the two commands that need a loaded seed. -/
theorem exec_ERR_of_seedNeeded {i : Instr} (hi : i = .step ∨ i = .genContinue) (h : exec i s = .next t) :
    t.ERR = if s.PHASE ≠ .idle then .busy else if s.SEEDED = false then .notSeeded else .none := by
  obtain rfl | rfl := hi
  · refine whenIdle_ERR h fun h => whenSeeded_ERR h fun h => ?_
    obtain ⟨p, -, h⟩ := withDraw_next h
    exact setErr_next_ERR h
  · exact whenIdle_ERR h fun h => whenSeeded_ERR h setErr_next_ERR

end Sys2Proof.Machine

namespace Sys2Proof.Proofs

open Sys2Proof.Machine

/-- Settles O39: what the host sees of its access is no part of XMG. -/
theorem readsAndBusErrorsChangeNothing : Obligations.ReadsAndBusErrorsChangeNothing := fun _ _ h =>
  ⟨fun _ _ hnow => step_read_sameXmg hnow h, fun _ _ _ hnow => step_poll_sameXmg hnow h,
    fun _ _ _ hnow hlog => step_refusedWrite_sameXmg hnow h hlog⟩

/-- Settles O15: a command that completes (`exec_completes`) leaves the rest alone. -/
theorem everyCommandCompletes : Obligations.EveryCommandCompletes := by
  intro i s hS
  obtain ⟨t, h⟩ := exec_completes i hS
  obtain ⟨hMAT, hrank, hlog, htable⟩ := exec_frame h
  obtain ⟨hturns, hhost⟩ := exec_queues h
  exact ⟨t, h, exec_SEED h, hMAT, hrank, hhost, hturns, hlog, htable⟩

/-- Settles O38: a read by the register that stands at the offset, a write by whether it is accepted. -/
theorem busErrorHasItsCausesOnly : Obligations.BusErrorHasItsCausesOnly := by
  intro s off size reserved
  refine ⟨?read, fun v => ?write, fun v t h hlog => memWrite_of_busErr h (by rw [hlog]; rfl)⟩
  case read =>
    rw [memRead_eq_busErr_iff]
    by_cases h8 : off.toNat % 8 = 0
    · obtain ⟨-, -, hreserved⟩ := registerMapIsOneToOne
      rw [hreserved off h8, exists_readRefused_iff h8]
    · exact iff_of_true (.inr (.inl h8)) (.inr (.inl h8))
  case write =>
    rw [memWrite_busErr_iff]
    simp only [reserved, List.mem_cons, List.not_mem_nil, or_false]
    omega

/-- Settles O21, by the agent and the operation of the step; a command by the checks of R85 in their order. -/
theorem errIsWrittenByItsEventsOnly : Obligations.ErrIsWrittenByItsEventsOnly := by
  intro s t h
  have command {i : Instr} (hnow : commandNow s i) : exec i (s.accessed .done) = .next t :=
    (step_of_commandNow hnow).symm.trans h
  refine ⟨?engine, ?noOp, fun _ _ hnow => (step_read_sameXmg hnow h).ERR,
    fun _ _ _ hnow => (step_poll_sameXmg hnow h).ERR, ?write, ?reset, ?bad, ?nop,
    fun hnow => exec_abort_ERR (s := s.accessed .done) (command hnow), ?seedLoad, ?seedNeeded⟩
  case engine =>
    intro hnow
    rw [step_of_engine_next hnow] at h
    exact engineStep_ERR (s := s.takeTurn) h
  case noOp =>
    intro hagent hhost
    rw [step_of_host_next hagent, hostStep_of_no_host (s := s.takeTurn) hhost] at h
    cases h
    rfl
  case write =>
    intro off size v hnow hoff
    rw [step_of_hostNow hnow] at h
    exact memWrite_ERR (s := s.takeTurn.popHost) hoff h
  case reset =>
    intro hnow
    rw [reset_next hnow h, State.resetDevice_ERR]
  case bad =>
    intro hnow
    cases (step_of_badCommandNow hnow).symm.trans h
    rfl
  case nop =>
    intro hnow
    cases command hnow
    rfl
  case seedLoad =>
    rintro len (hnow | hnow)
    · exact exec_ERR_of_seedLoad (s := s.accessed .done) (.inl rfl) (command hnow)
    · exact exec_ERR_of_seedLoad (s := s.accessed .done) (.inr rfl) (command hnow)
  case seedNeeded =>
    rintro (hnow | hnow)
    · exact exec_ERR_of_seedNeeded (s := s.accessed .done) (.inl rfl) (command hnow)
    · exact exec_ERR_of_seedNeeded (s := s.accessed .done) (.inr rfl) (command hnow)

end Sys2Proof.Proofs

/-! ## The busy hazard, reset and the engine's turn (spec/70_reset_and_hazards.md R250 to R254, R260)

A guarded register is refused while busy and, since reset clears the guards, right after reset. The host's reset is one
step. A step uses up one turn, so the first turn of the engine in the order comes after the host's turns before it. -/

namespace Sys2Proof.Machine

variable {s t : State} {n : Nat}

theorem memRead_offset_busErr {r : Reg} (h : r.readRefused s) : memRead s r.offset 8 = .ok .busErr :=
  (memRead_offset s r).trans ((readReg_eq_busErr_iff r).2 h)

/-! ### Reset (R250, R252) -/

theorem SameXmg.resetDevice (s : State) : SameXmg { State.reset with rankTable := s.rankTable } s.resetDevice where
  toSameGenerator := by constructor <;> rfl
  SEED := rfl
  ERR := rfl

theorem step_of_reset (h : hostNow s .reset) : step s = .next s.takeTurn.popHost.resetDevice := step_of_hostNow h

/-! ### The engine's turn (R260) -/

/-- R62: n steps use up n turns. -/
theorem run_turns (h : run n s = .next t) : t.turns = s.turns.drop n := by
  induction n generalizing t with
  | zero => cases h; rfl
  | succ n ih =>
    obtain ⟨u, hu, ht⟩ := run_succ_iff.1 h
    rw [(step_queues ht).1, ih hu, List.tail_drop]

/-- R260: the next step of a busy XMG is the engine's, unless a turn of the host is ordered first. -/
theorem engineNow_of_busy (hb : s.PHASE ≠ .idle) (h : s.turns.head? ≠ some .host) : engineNow s := by
  cases ht : s.turns with
  | nil => simp [engineNow, nextAgent, ht, (State.busy_iff s).2 hb]
  | cons a ts =>
    cases a with
    | host => simp [ht] at h
    | engine => exact nextAgent_of_turns ht

/-- How many turns of the host are ordered before the engine's first. -/
def State.hostTurns (s : State) : Nat := s.turns.idxOf .engine

theorem State.hostTurns_le (s : State) : s.hostTurns ≤ s.turns.length := List.idxOf_le_length

theorem State.turns_of_lt_hostTurns (h : n < s.hostTurns) : s.turns[n]? = some .host := by
  have hn : n < s.turns.length := h.trans_le s.hostTurns_le
  have hne : s.turns[n] ≠ .engine := by simpa using List.not_of_lt_findIdx h
  rw [List.getElem?_eq_getElem hn]
  cases ha : s.turns[n] with
  | host => rfl
  | engine => exact absurd ha hne

theorem State.turns_hostTurns_ne_host (s : State) : s.turns[s.hostTurns]? ≠ some .host := by
  intro h
  obtain ⟨hn, hhost⟩ := List.getElem?_eq_some_iff.1 h
  cases hhost.symm.trans (List.getElem_idxOf hn)

end Sys2Proof.Machine

namespace Sys2Proof.Proofs

open Sys2Proof.Machine

/-- Settles O51, with the number of the host's turns before the engine's first: the run uses them up (`run_turns`), and
then no turn of the host is at the head. -/
theorem busyEngineGetsItsTurn : Obligations.BusyEngineGetsItsTurn := by
  intro s
  refine ⟨s.hostTurns, s.hostTurns_le, fun _ => State.turns_of_lt_hostTurns, fun u hrun hbusy => ?_⟩
  apply engineNow_of_busy hbusy
  rw [run_turns hrun, List.head?_drop]
  exact s.turns_hostTurns_ne_host

/-- Settles O16: each data command stops at the check of R85 for PHASE, and each of the registers is guarded by it. -/
theorem busyRejectsDataCommandsAndReads : Obligations.BusyRejectsDataCommandsAndReads := by
  intro s hbusy
  refine ⟨fun len i hi => ?commands, memRead_offset_busErr (r := .out) (.inl hbusy),
    fun w => memRead_offset_busErr (r := .s w) (.inl hbusy), fun w => memRead_offset_busErr (r := .matw w) (.inl hbusy)⟩
  case commands =>
    simp only [List.mem_cons, List.not_mem_nil, or_false] at hi
    obtain rfl | rfl | rfl | rfl := hi <;> exact whenIdle_of_busy hbusy

/-- Settles O45: the values are those of `State.reset`; a read returns its register's, or is refused by a flag that reset
clears. -/
theorem resetStateHasTheStatedValues : Obligations.ResetStateHasTheStatedValues := by
  have hseed (w : Fin 4) : State.reset.SEED[w.val] = 0 := Vector.getElem_replicate _
  refine ⟨rfl, rfl, rfl, rfl, rfl, rfl, rfl, rfl, rfl, hseed, rfl, rfl, unwritten_entry, memRead_offset _ .status,
    memRead_offset _ .attempts, memRead_offset_busErr (r := .out) (.inr rfl), fun w => ⟨?seed, ?s⟩,
    fun w => memRead_offset_busErr (r := .matw w) (.inr rfl)⟩
  case seed => rw [← hseed w]; exact memRead_offset _ (.seed w)
  case s => exact memRead_offset_busErr (r := .s w) (.inr rfl)

/-- Settles O46: the host's reset is a step to `State.resetDevice`, which replaces all of XMG and nothing else. -/
theorem resetRestoresXmgFromAnyState : Obligations.ResetRestoresXmgFromAnyState := fun s h =>
  ⟨_, step_of_reset h, .resetDevice s.takeTurn.popHost, rfl, rfl, rfl⟩

end Sys2Proof.Proofs
